-- ==== Sys2Proof/Word.lean ====
section
/-! DEFINITION. The word types of the MPC555 development support (00_scope.md R3, R4). Bit numbers in
comments are the spec's: bit 0 is the most significant bit (R4), which Lean's `getMsbD` follows. -/

namespace Sys2Proof

/-- A 32-bit register, address or instruction word (R3). -/
abbrev Word := BitVec 32

/-- A byte of memory. -/
abbrev Byte := BitVec 8

/-- The number of a general register, a 5-bit instruction field (30_encoding.md R158). -/
abbrev Reg := BitVec 5

/-- The word of four bytes, the most significant first (20_memory.md R103, big-endian). -/
def wordOfBytes (b0 b1 b2 b3 : Byte) : Word := b0 ++ b1 ++ b2 ++ b3

/-- Byte lane `k` of a word, lane 0 the most significant (20_memory.md R103). -/
def lane (w : Word) (k : Nat) : Byte := w.extractLsb' (24 - 8 * k) 8

end Sys2Proof
end

