-- ==== Sys2Proof/Config.lean ====
section
/-! DEFINITION. The parameters the spec leaves open (00_scope.md R3, 92_eei_decisions.md) and the free
values. An `opaque` constant has no body: nothing can be proved of its value (log 16). -/

namespace Sys2Proof

/-- The eighteen events of 60_exceptions.md R441, in its order. -/
inductive Event where
  | nmi | checkStop | machineCheck | itlbError | dtlbError | extInt | alignment | program
  | fpUnavail | fpAssist | decrementer | sysCall | trace | softEmul
  | instrBreak | loadStoreBreak | extBreak | devPortInt
deriving DecidableEq, Repr, Inhabited

/-- The machine state register as a record of the named bits (10_state.md R55, 60_exceptions.md R444,
93_implementation_defined.md GK4) and the bits at all other positions. -/
structure Msr where
  /-- external interrupt enable -/
  ee : Bool
  /-- privilege: false = supervisor -/
  pr : Bool
  /-- machine check enable -/
  me : Bool
  /-- single-step trace enable -/
  se : Bool
  /-- branch trace enable -/
  be : Bool
  /-- recoverable interrupt -/
  ri : Bool
  /-- the bits at the positions of no named bit; the named positions are 0 here -/
  other : Word
deriving DecidableEq, Repr, Inhabited

/-- The order of the seven data bits d[0:6] of a trap enable transmission (30_encoding.md R143): the bits IW0, IW1,
IW2, IW3, LW0, LW1, VSYNC, numbered 0 to 6, are loaded from the data bits the permutation sends these numbers to. -/
abbrev TecrLayout := Equiv.Perm (Fin 7)

/-- The order of the table of 30_encoding.md R143: d[0] to d[6] are IW0 to VSYNC. The spec marks it as general
knowledge (GK5, D12): no statement and no meaning uses it, the tests do (log 18). -/
def TecrLayout.default : TecrLayout := Equiv.refl (Fin 7)

namespace Config

/-- `TECR_LAYOUT` (00_scope.md R3): "OPEN as a parameter for proofs" (92_eei_decisions.md D12), log 18. -/
opaque tecrLayout : TecrLayout

/-- The layout of SRR1: where each bit of the MSR image lies that an exception saves and `rfi` restores. Open (92
D7: "OPEN: the SRR1 bit layout"), log 12. -/
opaque srr1Position : Equiv.Perm (Fin 32)

/-- `VEC_RESET`: where the processor starts after a reset (70_reset_and_hazards.md R524, 92 D6).
PRESUMED 0x100 (the family's reset offset with vector base 0, GK7), unsafe: log 2. -/
def vecReset : Word := 0x00000100#32

/-- A 32-bit free value: the n-th draw (00_scope.md `draw`), log 16. -/
opaque freeWord : Nat → Word

/-- A free Boolean: the n-th draw, log 16. -/
opaque freeBool : Nat → Bool

/-- `VEC_*`: the word address (bits 0:29) of the handler of an event. The vector base is chosen by an MSR
bit of the CPU (92 D6), so the parameter may depend on the MSR. Open: log 11. -/
opaque vectorWord : Event → Msr → BitVec 30

/-- `SRR_RULE` for SRR0 at the CPU's own synchronous exceptions (92 D7), given the address of the instruction
that takes the exception. Open: log 12. -/
opaque srr0Rule : Event → Word → Word

/-- `SRR_RULE` for the bits of SRR1 that hold no named MSR bit (92 D7). `none` is a debug mode entry that no
event recognised at that moment causes (an immediate re-entry). Open: log 12. -/
opaque srr1Rest : Option Event → Msr → Word

/-- `MSR_ENTRY_RULE`: the MSR after an exception or debug mode entry, before the bits the spec fixes are
set (92 D7). Open: log 13. -/
opaque msrEntry : Option Event → Msr → Msr

/-- What `rfi` leaves at the MSR positions of no named bit, from SRR1 and the old MSR (R413: "which MSR bits
are copied is not in D0"). Open: log 14. -/
opaque rfiOther : Word → Msr → Word

/-- `EVENT_PRIORITY`: which of several simultaneous events is taken (92 D11); the value is an index
into the list, modulo its length. Open: log 15. -/
opaque eventPriority : List Event → Nat

end Config

end Sys2Proof
end

