-- ==== Sys2Proof/Syntax.lean ====
section
/-! DEFINITION. The instructions: one constructor per row of spec/opcode_table.json (30_encoding.md R165).
The first 37 are the serial frames a development tool sends to the port, the other 39 the CPU instructions
section 21 names. Beside them `CpuInstr`: what the CPU executes, with the moves of the four other special purpose
registers the spec names. -/

namespace Sys2Proof

/-- The seventeen development support registers (10_state.md R20). -/
inductive Spr where
  | cmpa | cmpb | cmpc | cmpd | ecr | der | counta | countb | cmpe | cmpf | cmpg | cmph
  | lctrl1 | lctrl2 | ictrl | bar | dpdr
deriving DecidableEq, Repr

/-- The instructions. The bits `x` of a command are those the port ignores (30_encoding.md R145). -/
inductive Instr where
  /-- `INSTR(w)`: an instruction word for the CPU (R146, R350) -/
  | instr (w : Word)
  /-- `DATA(v)`: a data word for the CPU (R146, R351) -/
  | data (v : Word)
  /-- `TECR(d)`: the seven data bits d[0:6], d[0] first (R143, R340) -/
  | tecr (d : BitVec 7)
  /-- `CMD_NOP` (R342) -/
  | cmdNop (x : BitVec 2)
  /-- `CMD_HRESET` (R343) -/
  | cmdHreset (x : BitVec 2)
  /-- `CMD_SRESET` (R344) -/
  | cmdSreset (x : BitVec 2)
  /-- reserved command `1110x00011` (R345) -/
  | cmdReserved0x00011 (x : BitVec 1)
  /-- `CMD_END_DOWNLOAD` (R363) -/
  | cmdEndDownload
  /-- `CMD_START_DOWNLOAD` (R361) -/
  | cmdStartDownload
  /-- reserved command `111xx00100` (R345) -/
  | cmdReserved00100 (x : BitVec 2)
  /-- reserved command `111xx00101` (R345) -/
  | cmdReserved00101 (x : BitVec 2)
  /-- reserved command `111xx00110` (R345) -/
  | cmdReserved00110 (x : BitVec 2)
  /-- reserved command `111xx00111` (R345) -/
  | cmdReserved00111 (x : BitVec 2)
  /-- reserved command `111xx01000` (R345) -/
  | cmdReserved01000 (x : BitVec 2)
  /-- reserved command `111xx01001` (R345) -/
  | cmdReserved01001 (x : BitVec 2)
  /-- reserved command `111xx01010` (R345) -/
  | cmdReserved01010 (x : BitVec 2)
  /-- reserved command `111xx01011` (R345) -/
  | cmdReserved01011 (x : BitVec 2)
  /-- reserved command `111xx01100` (R345) -/
  | cmdReserved01100 (x : BitVec 2)
  /-- reserved command `111xx01101` (R345) -/
  | cmdReserved01101 (x : BitVec 2)
  /-- reserved command `111xx01110` (R345) -/
  | cmdReserved01110 (x : BitVec 2)
  /-- reserved command `111xx01111` (R345) -/
  | cmdReserved01111 (x : BitVec 2)
  /-- reserved command `111xx10000` (R345) -/
  | cmdReserved10000 (x : BitVec 2)
  /-- reserved command `111xx10001` (R345) -/
  | cmdReserved10001 (x : BitVec 2)
  /-- reserved command `111xx10010` (R345) -/
  | cmdReserved10010 (x : BitVec 2)
  /-- reserved command `111xx10011` (R345) -/
  | cmdReserved10011 (x : BitVec 2)
  /-- reserved command `111xx10100` (R345) -/
  | cmdReserved10100 (x : BitVec 2)
  /-- reserved command `111xx10101` (R345) -/
  | cmdReserved10101 (x : BitVec 2)
  /-- reserved command `111xx10110` (R345) -/
  | cmdReserved10110 (x : BitVec 2)
  /-- reserved command `111xx10111` (R345) -/
  | cmdReserved10111 (x : BitVec 2)
  /-- reserved command `111xx11000` (R345) -/
  | cmdReserved11000 (x : BitVec 2)
  /-- reserved command `111xx11001` (R345) -/
  | cmdReserved11001 (x : BitVec 2)
  /-- reserved command `111xx11010` (R345) -/
  | cmdReserved11010 (x : BitVec 2)
  /-- reserved command `111xx11011` (R345) -/
  | cmdReserved11011 (x : BitVec 2)
  /-- reserved command `111xx11100` (R345) -/
  | cmdReserved11100 (x : BitVec 2)
  /-- reserved command `111xx11101` (R345) -/
  | cmdReserved11101 (x : BitVec 2)
  /-- reserved command `111xx11110` (R345) -/
  | cmdReserved11110 (x : BitVec 2)
  /-- `CMD_BRK(n, m)`: the non-maskable and the maskable breakpoint request (R346) -/
  | cmdBrk (n m : Bool)
  /-- `mfspr rD,CMPA` (SPR 144, R396) -/
  | mfsprCmpa (rd : Reg)
  /-- `mtspr CMPA,rS` (SPR 144, R396) -/
  | mtsprCmpa (rs : Reg)
  /-- `mfspr rD,CMPB` (SPR 145, R397) -/
  | mfsprCmpb (rd : Reg)
  /-- `mtspr CMPB,rS` (SPR 145, R397) -/
  | mtsprCmpb (rs : Reg)
  /-- `mfspr rD,CMPC` (SPR 146, R398) -/
  | mfsprCmpc (rd : Reg)
  /-- `mtspr CMPC,rS` (SPR 146, R398) -/
  | mtsprCmpc (rs : Reg)
  /-- `mfspr rD,CMPD` (SPR 147, R399) -/
  | mfsprCmpd (rd : Reg)
  /-- `mtspr CMPD,rS` (SPR 147, R399) -/
  | mtsprCmpd (rs : Reg)
  /-- `mfspr rD,ECR` (SPR 148, R400) -/
  | mfsprEcr (rd : Reg)
  /-- `mtspr ECR,rS` (SPR 148, R400) -/
  | mtsprEcr (rs : Reg)
  /-- `mfspr rD,DER` (SPR 149, R401) -/
  | mfsprDer (rd : Reg)
  /-- `mtspr DER,rS` (SPR 149, R401) -/
  | mtsprDer (rs : Reg)
  /-- `mfspr rD,COUNTA` (SPR 150, R402) -/
  | mfsprCounta (rd : Reg)
  /-- `mtspr COUNTA,rS` (SPR 150, R402) -/
  | mtsprCounta (rs : Reg)
  /-- `mfspr rD,COUNTB` (SPR 151, R403) -/
  | mfsprCountb (rd : Reg)
  /-- `mtspr COUNTB,rS` (SPR 151, R403) -/
  | mtsprCountb (rs : Reg)
  /-- `mfspr rD,CMPE` (SPR 152, R404) -/
  | mfsprCmpe (rd : Reg)
  /-- `mtspr CMPE,rS` (SPR 152, R404) -/
  | mtsprCmpe (rs : Reg)
  /-- `mfspr rD,CMPF` (SPR 153, R405) -/
  | mfsprCmpf (rd : Reg)
  /-- `mtspr CMPF,rS` (SPR 153, R405) -/
  | mtsprCmpf (rs : Reg)
  /-- `mfspr rD,CMPG` (SPR 154, R406) -/
  | mfsprCmpg (rd : Reg)
  /-- `mtspr CMPG,rS` (SPR 154, R406) -/
  | mtsprCmpg (rs : Reg)
  /-- `mfspr rD,CMPH` (SPR 155, R407) -/
  | mfsprCmph (rd : Reg)
  /-- `mtspr CMPH,rS` (SPR 155, R407) -/
  | mtsprCmph (rs : Reg)
  /-- `mfspr rD,LCTRL1` (SPR 156, R408) -/
  | mfsprLctrl1 (rd : Reg)
  /-- `mtspr LCTRL1,rS` (SPR 156, R408) -/
  | mtsprLctrl1 (rs : Reg)
  /-- `mfspr rD,LCTRL2` (SPR 157, R409) -/
  | mfsprLctrl2 (rd : Reg)
  /-- `mtspr LCTRL2,rS` (SPR 157, R409) -/
  | mtsprLctrl2 (rs : Reg)
  /-- `mfspr rD,ICTRL` (SPR 158, R410) -/
  | mfsprIctrl (rd : Reg)
  /-- `mtspr ICTRL,rS` (SPR 158, R410) -/
  | mtsprIctrl (rs : Reg)
  /-- `mfspr rD,BAR` (SPR 159, R411) -/
  | mfsprBar (rd : Reg)
  /-- `mtspr BAR,rS` (SPR 159, R411) -/
  | mtsprBar (rs : Reg)
  /-- `mfspr rD,DPDR` (SPR 630, R412) -/
  | mfsprDpdr (rd : Reg)
  /-- `mtspr DPDR,rS` (SPR 630, R412) -/
  | mtsprDpdr (rs : Reg)
  /-- `rfi` (R413) -/
  | rfi
  /-- `mtmsr rS` (R414) -/
  | mtmsr (rs : Reg)
  /-- `isync` (R415) -/
  | isync
  /-- `sync` (R416) -/
  | sync
  /-- `stwu rS,d(rA)`; `d` is the 16-bit two's complement displacement as a number (R162, R417) -/
  | stwu (rs : Reg) (d : Int) (ra : Reg)
deriving DecidableEq, Repr

namespace Instr

/-- `mfspr rD,n` by the register it names. -/
def mfspr (rd : Reg) : Spr → Instr
  | .cmpa => .mfsprCmpa rd
  | .cmpb => .mfsprCmpb rd
  | .cmpc => .mfsprCmpc rd
  | .cmpd => .mfsprCmpd rd
  | .ecr => .mfsprEcr rd
  | .der => .mfsprDer rd
  | .counta => .mfsprCounta rd
  | .countb => .mfsprCountb rd
  | .cmpe => .mfsprCmpe rd
  | .cmpf => .mfsprCmpf rd
  | .cmpg => .mfsprCmpg rd
  | .cmph => .mfsprCmph rd
  | .lctrl1 => .mfsprLctrl1 rd
  | .lctrl2 => .mfsprLctrl2 rd
  | .ictrl => .mfsprIctrl rd
  | .bar => .mfsprBar rd
  | .dpdr => .mfsprDpdr rd

/-- `mtspr n,rS` by the register it names. -/
def mtspr (rs : Reg) : Spr → Instr
  | .cmpa => .mtsprCmpa rs
  | .cmpb => .mtsprCmpb rs
  | .cmpc => .mtsprCmpc rs
  | .cmpd => .mtsprCmpd rs
  | .ecr => .mtsprEcr rs
  | .der => .mtsprDer rs
  | .counta => .mtsprCounta rs
  | .countb => .mtsprCountb rs
  | .cmpe => .mtsprCmpe rs
  | .cmpf => .mtsprCmpf rs
  | .cmpg => .mtsprCmpg rs
  | .cmph => .mtsprCmph rs
  | .lctrl1 => .mtsprLctrl1 rs
  | .lctrl2 => .mtsprLctrl2 rs
  | .ictrl => .mtsprIctrl rs
  | .bar => .mtsprBar rs
  | .dpdr => .mtsprDpdr rs

end Instr

/-- The registers exceptions save into (10_state.md R56). -/
inductive SaveReg where
  | srr0 | srr1 | dar | dsisr
deriving DecidableEq, Repr

/-- What the CPU executes: a row of the table, or `mfspr` and `mtspr` of a register exceptions save into
(43_cpu_instructions.md R390), which has no row (log 53). -/
inductive CpuInstr where
  /-- a row of the opcode table -/
  | table (i : Instr)
  /-- `mfspr rD,SRR0` and so on -/
  | mfsprSave (rd : Reg) (n : SaveReg)
  /-- `mtspr SRR0,rS` and so on -/
  | mtsprSave (n : SaveReg) (rs : Reg)
deriving DecidableEq, Repr

end Sys2Proof
end

