-- ==== Sys2Proof/WellFormed.lean ====
section
/-! DEFINITION. Which instructions have an encoding. Every operand but one has the type of its field; the
displacement of `stwu` is a number, and it must fit the 16-bit two's complement field (30_encoding.md R162). -/

namespace Sys2Proof

namespace Instr

/-- The displacement fits the 16-bit field (R162, R163). -/
def wellFormed : Instr → Bool
  | .stwu _ d _ => decide (-32768 ≤ d) && decide (d ≤ 32767)
  | .instr _ | .data _ | .tecr _ | .cmdNop _ | .cmdHreset _ | .cmdSreset _ | .cmdReserved0x00011 _
  | .cmdEndDownload | .cmdStartDownload | .cmdReserved00100 _ | .cmdReserved00101 _
  | .cmdReserved00110 _ | .cmdReserved00111 _ | .cmdReserved01000 _ | .cmdReserved01001 _
  | .cmdReserved01010 _ | .cmdReserved01011 _ | .cmdReserved01100 _ | .cmdReserved01101 _
  | .cmdReserved01110 _ | .cmdReserved01111 _ | .cmdReserved10000 _ | .cmdReserved10001 _
  | .cmdReserved10010 _ | .cmdReserved10011 _ | .cmdReserved10100 _ | .cmdReserved10101 _
  | .cmdReserved10110 _ | .cmdReserved10111 _ | .cmdReserved11000 _ | .cmdReserved11001 _
  | .cmdReserved11010 _ | .cmdReserved11011 _ | .cmdReserved11100 _ | .cmdReserved11101 _
  | .cmdReserved11110 _ | .cmdBrk _ _ | .mfsprCmpa _ | .mtsprCmpa _ | .mfsprCmpb _ | .mtsprCmpb _
  | .mfsprCmpc _ | .mtsprCmpc _ | .mfsprCmpd _ | .mtsprCmpd _ | .mfsprEcr _ | .mtsprEcr _
  | .mfsprDer _ | .mtsprDer _ | .mfsprCounta _ | .mtsprCounta _ | .mfsprCountb _ | .mtsprCountb _
  | .mfsprCmpe _ | .mtsprCmpe _ | .mfsprCmpf _ | .mtsprCmpf _ | .mfsprCmpg _ | .mtsprCmpg _
  | .mfsprCmph _ | .mtsprCmph _ | .mfsprLctrl1 _ | .mtsprLctrl1 _ | .mfsprLctrl2 _ | .mtsprLctrl2 _
  | .mfsprIctrl _ | .mtsprIctrl _ | .mfsprBar _ | .mtsprBar _ | .mfsprDpdr _ | .mtsprDpdr _ | .rfi
  | .mtmsr _ | .isync | .sync => true

/-- `wellFormed` as a proposition. -/
abbrev WellFormed (i : Instr) : Prop := i.wellFormed = true

end Instr

end Sys2Proof
end

