-- ==== Sys2Proof/Decode.lean ====
section
/-! DEFINITION. Decoding and encoding (30_encoding.md). A serial frame is a bit string in time order, and
the first bit shifted is the most significant bit of the `BitVec` (R140, D18, log 19). -/

namespace Sys2Proof

/-- What is decoded: a CPU instruction word, or the raw bits of a serial frame of either length (R141). -/
inductive Code where
  | word (w : Word)
  | dp10 (b : BitVec 10)
  | dp35 (b : BitVec 35)
deriving DecidableEq, Repr

/-- Why bits are no instruction. -/
inductive Reject where
  /-- a CPU word that is no row of the table (00_scope.md section 3); the CPU may still execute it, `decodeCpu` -/
  | unknownWord
  /-- no start bit: the idle level, not a frame (R150) -/
  | noStartBit
  /-- the mode bit tells another length than the frame has (R141) -/
  | wrongLength
deriving DecidableEq, Repr

/-- The answer of the decoder. -/
inductive Decoded where
  | ok (i : Instr)
  | rejected (r : Reject)
deriving DecidableEq, Repr

namespace Spr

/-- The SPR number (10_state.md R20, R156). -/
def number : Spr → BitVec 10
  | .cmpa => 144#10
  | .cmpb => 145#10
  | .cmpc => 146#10
  | .cmpd => 147#10
  | .ecr => 148#10
  | .der => 149#10
  | .counta => 150#10
  | .countb => 151#10
  | .cmpe => 152#10
  | .cmpf => 153#10
  | .cmpg => 154#10
  | .cmph => 155#10
  | .lctrl1 => 156#10
  | .lctrl2 => 157#10
  | .ictrl => 158#10
  | .bar => 159#10
  | .dpdr => 630#10

/-- The register with an SPR number, if it is one of the seventeen. -/
def ofNumber (n : BitVec 10) : Option Spr :=
  match n.toNat with
  | 144 => some .cmpa
  | 145 => some .cmpb
  | 146 => some .cmpc
  | 147 => some .cmpd
  | 148 => some .ecr
  | 149 => some .der
  | 150 => some .counta
  | 151 => some .countb
  | 152 => some .cmpe
  | 153 => some .cmpf
  | 154 => some .cmpg
  | 155 => some .cmph
  | 156 => some .lctrl1
  | 157 => some .lctrl2
  | 158 => some .ictrl
  | 159 => some .bar
  | 630 => some .dpdr
  | _ => none

end Spr

/-- Primary opcode 31 (R158, R159, R161): bits 6:10, 11:15, 16:20, 21:30 and 31 of the word. -/
def decodeOp31 (r : Reg) (lo hi : BitVec 5) (xo : BitVec 10) (rc : BitVec 1) : Decoded :=
  if rc = 0#1 then
    match xo.toNat with
    | 339 => match Spr.ofNumber (hi ++ lo) with
      | some n => .ok (.mfspr r n)
      | none => .rejected .unknownWord
    | 467 => match Spr.ofNumber (hi ++ lo) with
      | some n => .ok (.mtspr r n)
      | none => .rejected .unknownWord
    | 146 => if lo = 0#5 ∧ hi = 0#5 then .ok (.mtmsr r) else .rejected .unknownWord
    | 598 => if r = 0#5 ∧ lo = 0#5 ∧ hi = 0#5 then .ok .sync else .rejected .unknownWord
    | _ => .rejected .unknownWord
  else .rejected .unknownWord

/-- A CPU instruction word (R157 to R162). -/
def decodeWord (w : Word) : Decoded :=
  match (w.extractLsb' 26 6).toNat with
  | 31 => decodeOp31 (w.extractLsb' 21 5) (w.extractLsb' 16 5) (w.extractLsb' 11 5) (w.extractLsb' 1 10)
      (w.extractLsb' 0 1)
  | 37 => .ok (.stwu (w.extractLsb' 21 5) (w.extractLsb' 0 16).toInt (w.extractLsb' 16 5))
  | 19 => if w = 0x4C000064#32 then .ok .rfi
      else if w = 0x4C00012C#32 then .ok .isync
      else .rejected .unknownWord
  | _ => .rejected .unknownWord

namespace SaveReg

/-- The SPR number: PRESUMED, the family's (93_implementation_defined.md GK3, log 53). -/
def number : SaveReg → BitVec 10
  | .dsisr => 18#10
  | .dar => 19#10
  | .srr0 => 26#10
  | .srr1 => 27#10

/-- The register with an SPR number, if it is one of the four. -/
def ofNumber (n : BitVec 10) : Option SaveReg :=
  match n.toNat with
  | 18 => some .dsisr
  | 19 => some .dar
  | 26 => some .srr0
  | 27 => some .srr1
  | _ => none

end SaveReg

/-- `mfspr` or `mtspr` (R158, R159) of a register exceptions save into. -/
def decodeSave (w : Word) : Option CpuInstr :=
  if w.extractLsb' 26 6 = 31#6 ∧ w.extractLsb' 0 1 = 0#1 then
    match SaveReg.ofNumber (w.extractLsb' 11 5 ++ w.extractLsb' 16 5), (w.extractLsb' 1 10).toNat with
    | some n, 339 => some (.mfsprSave (w.extractLsb' 21 5) n)
    | some n, 467 => some (.mtsprSave n (w.extractLsb' 21 5))
    | _, _ => none
  else none

/-- What the CPU executes for a word, if the spec describes it. -/
def decodeCpu (w : Word) : Option CpuInstr :=
  match decodeWord w with
  | .ok i => some (.table i)
  | .rejected _ => decodeSave w

/-- A CPU instruction word as four bytes in memory order (20_memory.md R103). -/
def decodeBytes (b0 b1 b2 b3 : Byte) : Decoded := decodeWord (wordOfBytes b0 b1 b2 b3)

/-- A debug port command (R144, R145): the two extended opcode bits and the major opcode. -/
def decodeCommand (ext : BitVec 2) (major : BitVec 5) : Instr :=
  match major.toNat with
  | 0 => .cmdNop ext
  | 1 => .cmdHreset ext
  | 2 => .cmdSreset ext
  | 3 => match ext.toNat with
    | 2 => .cmdEndDownload
    | 3 => .cmdStartDownload
    | _ => .cmdReserved0x00011 (ext.extractLsb' 0 1)
  | 4 => .cmdReserved00100 ext
  | 5 => .cmdReserved00101 ext
  | 6 => .cmdReserved00110 ext
  | 7 => .cmdReserved00111 ext
  | 8 => .cmdReserved01000 ext
  | 9 => .cmdReserved01001 ext
  | 10 => .cmdReserved01010 ext
  | 11 => .cmdReserved01011 ext
  | 12 => .cmdReserved01100 ext
  | 13 => .cmdReserved01101 ext
  | 14 => .cmdReserved01110 ext
  | 15 => .cmdReserved01111 ext
  | 16 => .cmdReserved10000 ext
  | 17 => .cmdReserved10001 ext
  | 18 => .cmdReserved10010 ext
  | 19 => .cmdReserved10011 ext
  | 20 => .cmdReserved10100 ext
  | 21 => .cmdReserved10101 ext
  | 22 => .cmdReserved10110 ext
  | 23 => .cmdReserved10111 ext
  | 24 => .cmdReserved11000 ext
  | 25 => .cmdReserved11001 ext
  | 26 => .cmdReserved11010 ext
  | 27 => .cmdReserved11011 ext
  | 28 => .cmdReserved11100 ext
  | 29 => .cmdReserved11101 ext
  | 30 => .cmdReserved11110 ext
  | _ => .cmdBrk (ext.getMsbD 0) (ext.getMsbD 1)

/-- The seven data bits after start, mode = 1 and control (R142). -/
def decodeData7 (control : Bool) (d : BitVec 7) : Instr :=
  if control then decodeCommand (d.extractLsb' 5 2) (d.extractLsb' 0 5) else .tecr d

/-- A 10-bit frame: start, mode, control, d[0:6] (R141, R142). -/
def decodeDp10 (b : BitVec 10) : Decoded :=
  if b.getMsbD 0 then
    if b.getMsbD 1 then .ok (decodeData7 (b.getMsbD 2) (b.extractLsb' 0 7)) else .rejected .wrongLength
  else .rejected .noStartBit

/-- A 35-bit frame: start, mode, control, D[0:31] (R141, R142, R146). -/
def decodeDp35 (b : BitVec 35) : Decoded :=
  if b.getMsbD 0 then
    if b.getMsbD 1 then .rejected .wrongLength
    else if b.getMsbD 2 then .ok (.data (b.extractLsb' 0 32))
    else .ok (.instr (b.extractLsb' 0 32))
  else .rejected .noStartBit

/-- The decoder, total on every code. -/
def decode : Code → Decoded
  | .word w => decodeWord w
  | .dp10 b => decodeDp10 b
  | .dp35 b => decodeDp35 b

/-! ### The encoder -/

/-- `mfspr` (R158): the `spr` field holds the SPR number with its two halves swapped. -/
def mfsprWord (number : BitVec 10) (rd : Reg) : Word :=
  31#6 ++ rd ++ number.extractLsb' 0 5 ++ number.extractLsb' 5 5 ++ 339#10 ++ 0#1

/-- `mtspr` (R159). -/
def mtsprWord (number : BitVec 10) (rs : Reg) : Word :=
  31#6 ++ rs ++ number.extractLsb' 0 5 ++ number.extractLsb' 5 5 ++ 467#10 ++ 0#1

/-- `mfspr` of a development support register. -/
def encodeMfspr (n : Spr) (rd : Reg) : Word := mfsprWord n.number rd

/-- `mtspr` of a development support register. -/
def encodeMtspr (n : Spr) (rs : Reg) : Word := mtsprWord n.number rs

/-- A command frame (R144): `111`, the extended opcode, the major opcode. -/
def encodeCommand (ext : BitVec 2) (major : BitVec 5) : Code := .dp10 (0b111#3 ++ ext ++ major)

/-- The encoding of a well-formed instruction (R141 to R146, R157 to R162). -/
def encode : Instr → Code
  | .instr w => .dp35 (0b100#3 ++ w)
  | .data v => .dp35 (0b101#3 ++ v)
  | .tecr d => .dp10 (0b110#3 ++ d)
  | .cmdNop x => encodeCommand x 0b00000#5
  | .cmdHreset x => encodeCommand x 0b00001#5
  | .cmdSreset x => encodeCommand x 0b00010#5
  | .cmdReserved0x00011 x => encodeCommand (0#1 ++ x) 0b00011#5
  | .cmdEndDownload => encodeCommand 0b10#2 0b00011#5
  | .cmdStartDownload => encodeCommand 0b11#2 0b00011#5
  | .cmdReserved00100 x => encodeCommand x 0b00100#5
  | .cmdReserved00101 x => encodeCommand x 0b00101#5
  | .cmdReserved00110 x => encodeCommand x 0b00110#5
  | .cmdReserved00111 x => encodeCommand x 0b00111#5
  | .cmdReserved01000 x => encodeCommand x 0b01000#5
  | .cmdReserved01001 x => encodeCommand x 0b01001#5
  | .cmdReserved01010 x => encodeCommand x 0b01010#5
  | .cmdReserved01011 x => encodeCommand x 0b01011#5
  | .cmdReserved01100 x => encodeCommand x 0b01100#5
  | .cmdReserved01101 x => encodeCommand x 0b01101#5
  | .cmdReserved01110 x => encodeCommand x 0b01110#5
  | .cmdReserved01111 x => encodeCommand x 0b01111#5
  | .cmdReserved10000 x => encodeCommand x 0b10000#5
  | .cmdReserved10001 x => encodeCommand x 0b10001#5
  | .cmdReserved10010 x => encodeCommand x 0b10010#5
  | .cmdReserved10011 x => encodeCommand x 0b10011#5
  | .cmdReserved10100 x => encodeCommand x 0b10100#5
  | .cmdReserved10101 x => encodeCommand x 0b10101#5
  | .cmdReserved10110 x => encodeCommand x 0b10110#5
  | .cmdReserved10111 x => encodeCommand x 0b10111#5
  | .cmdReserved11000 x => encodeCommand x 0b11000#5
  | .cmdReserved11001 x => encodeCommand x 0b11001#5
  | .cmdReserved11010 x => encodeCommand x 0b11010#5
  | .cmdReserved11011 x => encodeCommand x 0b11011#5
  | .cmdReserved11100 x => encodeCommand x 0b11100#5
  | .cmdReserved11101 x => encodeCommand x 0b11101#5
  | .cmdReserved11110 x => encodeCommand x 0b11110#5
  | .cmdBrk n m => encodeCommand (BitVec.ofBool n ++ BitVec.ofBool m) 0b11111#5
  | .mfsprCmpa rd => .word (encodeMfspr .cmpa rd)
  | .mtsprCmpa rs => .word (encodeMtspr .cmpa rs)
  | .mfsprCmpb rd => .word (encodeMfspr .cmpb rd)
  | .mtsprCmpb rs => .word (encodeMtspr .cmpb rs)
  | .mfsprCmpc rd => .word (encodeMfspr .cmpc rd)
  | .mtsprCmpc rs => .word (encodeMtspr .cmpc rs)
  | .mfsprCmpd rd => .word (encodeMfspr .cmpd rd)
  | .mtsprCmpd rs => .word (encodeMtspr .cmpd rs)
  | .mfsprEcr rd => .word (encodeMfspr .ecr rd)
  | .mtsprEcr rs => .word (encodeMtspr .ecr rs)
  | .mfsprDer rd => .word (encodeMfspr .der rd)
  | .mtsprDer rs => .word (encodeMtspr .der rs)
  | .mfsprCounta rd => .word (encodeMfspr .counta rd)
  | .mtsprCounta rs => .word (encodeMtspr .counta rs)
  | .mfsprCountb rd => .word (encodeMfspr .countb rd)
  | .mtsprCountb rs => .word (encodeMtspr .countb rs)
  | .mfsprCmpe rd => .word (encodeMfspr .cmpe rd)
  | .mtsprCmpe rs => .word (encodeMtspr .cmpe rs)
  | .mfsprCmpf rd => .word (encodeMfspr .cmpf rd)
  | .mtsprCmpf rs => .word (encodeMtspr .cmpf rs)
  | .mfsprCmpg rd => .word (encodeMfspr .cmpg rd)
  | .mtsprCmpg rs => .word (encodeMtspr .cmpg rs)
  | .mfsprCmph rd => .word (encodeMfspr .cmph rd)
  | .mtsprCmph rs => .word (encodeMtspr .cmph rs)
  | .mfsprLctrl1 rd => .word (encodeMfspr .lctrl1 rd)
  | .mtsprLctrl1 rs => .word (encodeMtspr .lctrl1 rs)
  | .mfsprLctrl2 rd => .word (encodeMfspr .lctrl2 rd)
  | .mtsprLctrl2 rs => .word (encodeMtspr .lctrl2 rs)
  | .mfsprIctrl rd => .word (encodeMfspr .ictrl rd)
  | .mtsprIctrl rs => .word (encodeMtspr .ictrl rs)
  | .mfsprBar rd => .word (encodeMfspr .bar rd)
  | .mtsprBar rs => .word (encodeMtspr .bar rs)
  | .mfsprDpdr rd => .word (encodeMfspr .dpdr rd)
  | .mtsprDpdr rs => .word (encodeMtspr .dpdr rs)
  | .rfi => .word 0x4C000064#32
  | .mtmsr rs => .word (31#6 ++ rs ++ 0#5 ++ 0#5 ++ 146#10 ++ 0#1)
  | .isync => .word 0x4C00012C#32
  | .sync => .word 0x7C0004AC#32
  | .stwu rs d ra => .word (37#6 ++ rs ++ ra ++ BitVec.ofInt 16 d)

/-- The encoding of what the CPU executes (R158, R159). -/
def encodeCpu : CpuInstr → Code
  | .table i => encode i
  | .mfsprSave rd n => .word (mfsprWord n.number rd)
  | .mtsprSave n rs => .word (mtsprWord n.number rs)

/-! ### The opcode table's words -/

/-- The code whose bits are `w`, numbered as spec/opcode_table.json numbers them. A row of at most 16 bits
is a 10-bit frame, one of at most 32 bits a CPU word in its four bytes, a longer one a 35-bit frame. A
frame's pattern is read as one binary number, its last bit the least significant (log 19). `none` where bits
are set that the row does not have. -/
def tableCode (nbits w : Nat) : Option Code :=
  if nbits ≤ 16 then if w < 2 ^ 10 then some (.dp10 (BitVec.ofNat 10 w)) else none
  else if nbits ≤ 32 then if w < 2 ^ 32 then some (.word (BitVec.ofNat 32 w)) else none
  else if w < 2 ^ 35 then some (.dp35 (BitVec.ofNat 35 w)) else none

/-- Decodes a code through the form in which the hardware stores it: a CPU word as its four bytes. -/
def decodeStored : Code → Decoded
  | .word w => decodeBytes (lane w 0) (lane w 1) (lane w 2) (lane w 3)
  | .dp10 b => decodeDp10 b
  | .dp35 b => decodeDp35 b

/-- The instruction the decoder reads from the bits `w` of a row of `nbits` bits. -/
def decodeTableWord (nbits w : Nat) : Option Instr :=
  match tableCode nbits w with
  | none => none
  | some c => match decodeStored c with
    | .ok i => some i
    | .rejected _ => none

end Sys2Proof
end

