-- ==== Sys2Proof/Machine/State.lean ====
section
/-! DEFINITION. The state of the machine as plain data: every piece of state the spec names (10_state.md,
INVENTORY.md '## State'), the inputs from outside, the reasons a step can stop, and the state after reset. -/

namespace Sys2Proof.Machine

/-! ### The CPU -/

/-- One load/store bus cycle as the comparators see it (20_memory.md R106): address, read or write, size in
bytes, and the 32-bit bus value in byte lanes. -/
structure BusCycle where
  addr : Word
  write : Bool
  size : Nat
  data : Word
deriving DecidableEq, Repr

/-- The bookkeeping of the instruction in flight (10_state.md R52): the instruction watchpoints detected at its
fetch, its bus cycles in order, and whether it took an exception instead of completing. -/
structure Flight where
  iwp0 : Bool
  iwp1 : Bool
  iwp2 : Bool
  iwp3 : Bool
  cycles : List BusCycle
  excepted : Bool
deriving DecidableEq, Repr

/-- No instruction in flight. -/
def Flight.idle : Flight := ⟨false, false, false, false, [], false⟩

/-- `CPU_WAIT` (10_state.md R48): what the CPU waits for from the port. An outstanding read of DPDR keeps the
number of the register it will write. -/
inductive CpuWait where
  | none
  | instr
  | data (rd : Reg)
deriving DecidableEq, Repr

/-- The CPU state section 21 reads or writes (10_state.md R53 to R56, R48, R52). -/
structure Cpu where
  gpr : Vector Word 32
  pc : Word
  msr : Msr
  srr0 : Word
  srr1 : Word
  dar : Word
  dsisr : Word
  /-- the check stop state (60_exceptions.md R455) -/
  checkStop : Bool
  wait : CpuWait
  /-- the instruction word the port handed over, not yet executed (R39, 42_development_port.md R350) -/
  dpir : Option Word
  flight : Flight
deriving DecidableEq, Repr

/-! ### The development support registers -/

/-- COUNTA or COUNTB (10_state.md R31, R32). -/
structure Counter where
  cntv : BitVec 16
  cntc : BitVec 2
deriving DecidableEq, Repr

/-- The registers SPR 144 to 159 (10_state.md R20). Control registers hold their stored bits only: a bit that
is reserved or read only is 0 here. -/
structure Dev where
  cmpa : BitVec 30
  cmpb : BitVec 30
  cmpc : BitVec 30
  cmpd : BitVec 30
  ecr : Word
  der : Word
  counta : Counter
  countb : Counter
  cmpe : Word
  cmpf : Word
  cmpg : Word
  cmph : Word
  lctrl1 : Word
  lctrl2 : Word
  ictrl : Word
  bar : Word
deriving DecidableEq, Repr

/-- The latches of 10_state.md R42 to R45. -/
structure Mode where
  /-- debug mode enable -/
  dme : Bool
  /-- in debug mode -/
  dm : Bool
  /-- freeze -/
  frz : Bool
  /-- port clock mode: true = synchronous self clock -/
  clkMode : Bool
deriving DecidableEq, Repr

/-! ### The development port -/

/-- The trap enable control register (10_state.md R41). -/
structure Tecr where
  iw0 : Bool
  iw1 : Bool
  iw2 : Bool
  iw3 : Bool
  lw0 : Bool
  lw1 : Bool
  vsync : Bool
  mbrk : Bool
  nmbrk : Bool
deriving DecidableEq, Repr

/-- The raw bits of a serial frame, in either direction (30_encoding.md R141, R147). -/
inductive Frame where
  | short (b : BitVec 10)
  | long (b : BitVec 35)
deriving DecidableEq, Repr

/-- The development port (10_state.md R40, R41, R46, R47; 42_development_port.md R361, R363). -/
structure Port where
  shift : BitVec 35
  tecr : Tecr
  /-- download procedure in progress -/
  dlip : Bool
  /-- an end download command was received: the next data word ends the procedure -/
  dlEnd : Bool
  /-- the next loop instruction the port supplies is the store -/
  dlStore : Bool
  pValid : Bool
  pSeq : Bool
  pInt : Bool
  /-- the output frames shifted out so far, in order -/
  dsdo : List Frame
deriving DecidableEq, Repr

/-! ### The trace -/

/-- What the next instruction fetch carries (40_program_trace.md R183, R203, R204). -/
structure FetchMark where
  /-- program trace cycle attribute -/
  ptc : Bool
  /-- first fetch after a taken change of flow -/
  cof : Bool
  /-- marked because VSYNC changed -/
  vsync : Bool
deriving DecidableEq, Repr

/-- An unmarked fetch. -/
def FetchMark.plain : FetchMark := ⟨false, false, false⟩

/-- The two states of the external VF decoder (40_program_trace.md R187). -/
inductive VfState where
  | type
  | flush
deriving DecidableEq, Repr

/-- The trace events of 40_program_trace.md R208. -/
inductive TraceEvent where
  | typeCode (code : BitVec 3)
  /-- at most five instructions (00_scope.md R3, 30_encoding.md R154) -/
  | queueFlush (n : Fin 6)
  /-- at most two instructions (00_scope.md R3, 30_encoding.md R155) -/
  | historyFlush (n : Fin 3)
  | showCycle (addr : BitVec 30) (ptc : Bool)
deriving DecidableEq, Repr

/-- The five watchpoint pins (10_state.md R57, 41_watchpoints_breakpoints.md R242). -/
structure WatchPins where
  iwp0 : Bool
  iwp1 : Bool
  iwp2 : Bool
  lwp0 : Bool
  lwp1 : Bool
deriving DecidableEq, Repr

/-- No watchpoint pin pulsed. -/
def WatchPins.quiet : WatchPins := ⟨false, false, false, false, false⟩

/-- The trace unit (10_state.md R49; 40_program_trace.md R187, R198, R203 to R205, R208). -/
structure Trace where
  /-- `VSYNC_CHANGED_IN_DM` -/
  vsyncChanged : Bool
  /-- how many changes of VSYNC still wait to be reported: a negation for the marked addresses to be shown (R198), any
  change for the fetch that an earlier report marked (R197, log 51) -/
  vsyncHeld : Nat
  mark : FetchMark
  /-- ISCT_SER in effect for the next fetch (R205) -/
  isct : BitVec 3
  vfDec : VfState
  events : List TraceEvent
  pins : WatchPins
deriving DecidableEq, Repr

/-! ### The outside -/

/-- The exceptions of the CPU whose causes section 21 does not define and that an instruction takes
(60_exceptions.md R441: events 2 to 5, 7 to 10, 12, 14; event 13 follows MSR.SE, R444). `machineCheck` is the
machine check condition of R455 in its synchronous form, which becomes event 2 or event 3. -/
inductive CpuExc where
  | machineCheck | itlbError | dtlbError | alignment | program | fpUnavail | fpAssist | sysCall | softEmul
deriving DecidableEq, Repr

/-- The levels at the reset sampling points (70_reset_and_hazards.md R527): DSCK at T0 - 3 and at T0 + 7, DSDI at
T0 + 8. -/
structure ResetPins where
  dsckEnable : Bool
  dsckHeld : Bool
  dsdiClock : Bool
deriving DecidableEq, Repr

/-- The two kinds of reset (70_reset_and_hazards.md R520). -/
inductive ResetKind where
  | hard
  | soft
deriving DecidableEq, Repr

/-- What the outside does to the machine (42_development_port.md R367, 60_exceptions.md R441, R448). -/
inductive Input where
  /-- the tool offers a frame; it waits until the port is ready (R326) -/
  | frame (f : Frame)
  /-- the CPU takes a step before what follows -/
  | run
  /-- assertion of IRQ0_B (R445) -/
  | nmi
  /-- a machine check condition that belongs to no instruction (R441: events 2 and 3 are "S or A") -/
  | machineCheck
  /-- the level of the external interrupt request -/
  | extInt (on : Bool)
  /-- the level of the decrementer request -/
  | decr (on : Bool)
  /-- `module_breakpoint_request` (R446) -/
  | moduleBrk (on : Bool)
  /-- the next CPU instruction takes this exception -/
  | cpuException (e : CpuExc)
  /-- the tool holds these levels at the next reset -/
  | pins (p : ResetPins)
  /-- a reset from outside the port -/
  | reset (k : ResetKind)
deriving DecidableEq, Repr

/-- The inputs: what is still to come, the lines, and what was accepted and not yet recognised. -/
structure Ext where
  inputs : List Input
  moduleBrk : Bool
  extInt : Bool
  decr : Bool
  nmi : Bool
  /-- an asynchronous machine check condition waits to be recognised (R441, R455, log 49) -/
  machineCheck : Bool
  cpuExc : Option CpuExc
  pins : ResetPins
deriving DecidableEq, Repr

/-! ### The machine -/

/-- The state of the machine. -/
structure State where
  cpu : Cpu
  dev : Dev
  mode : Mode
  port : Port
  trace : Trace
  ext : Ext
  /-- memory: (address, byte), addresses strictly rising; an unlisted address holds no value (log 8) -/
  mem : List Host.Cell
  /-- the model's own counter of free values (log 16) -/
  draws : Nat
  /-- the model's own: a `sync` has covered every event COUNTA counted, and every write of it (log 22) -/
  syncedA : Bool
  /-- the same for COUNTB (log 22) -/
  syncedB : Bool
  /-- the model's own: the asserted NMBRK has been routed to a regular handler (log 38) -/
  nmbrkTaken : Bool
deriving DecidableEq, Repr

/-- Why the machine stops with a fault. -/
inductive Fault where
  /-- The check stop state: nothing but a reset leaves it (60_exceptions.md R455, U12). Raised by the CPU's
  step when no input is left. Safe: the spec calls it a stuck state. -/
  | checkStopped
  /-- The CPU waits for the tool and no input is left (42_development_port.md R352, R367, D16, D23). Raised by the
  CPU's step. Safe: the spec says the CPU stays stuck. -/
  | waitingForTool
  /-- A fetch from an address nothing has written (log 8). Raised by the CPU's step. Safe: the model says
  nothing of such memory. -/
  | fetchUnwritten
deriving DecidableEq, Repr

/-- Why the model has no meaning for a step. -/
inductive Refusal where
  /-- An instruction with no meaning yet. Raised by an arm of `exec`; safe. -/
  | notModelled (mnemonic : String)
  /-- A CPU word that is no row of the table and moves no register exceptions save into (00_scope.md section 3).
  Raised by the CPU's step; safe. -/
  | outsideSection21
  /-- A fetch with ISCT_SER = 100, "Illegal" (U4). Raised by the CPU's step; safe. -/
  | illegalShowCycles
  /-- `mtmsr` sets MSR.EE in debug mode, "strictly forbidden" (U10, R414). Raised by `mtmsr`; safe. -/
  | eeInDebugMode
  /-- NMBRK stays asserted after it was routed to a regular handler (D29, U14). Raised by the CPU's step;
  safe. -/
  | nmbrkHeld
  /-- A transmission offered while ready is not asserted (R326, U14). Raised by every frame's meaning; safe. -/
  | portNotReady
  /-- Bits whose length and mode bit disagree (R141). Raised by the step; safe. -/
  | notAFrame
deriving DecidableEq, Repr

namespace State

/-- The machine right after reset with DSCK and DSDI held low: row 1 of V90 (95_test_vectors.md),
70_reset_and_hazards.md R521. A register the spec gives no value holds 0 (log 4); pc and MSR hold the family's
values (log 1, log 2); the port's state is D5's (log 6). -/
def reset : State where
  cpu :=
    { gpr := Vector.replicate 32 0#32, pc := Config.vecReset,
      msr := ⟨false, false, false, false, false, false, 0#32⟩,
      srr0 := 0#32, srr1 := 0#32, dar := 0#32, dsisr := 0#32,
      checkStop := false, wait := .none, dpir := none, flight := Flight.idle }
  dev :=
    { cmpa := 0#30, cmpb := 0#30, cmpc := 0#30, cmpd := 0#30,
      ecr := 0x00000000#32, der := 0x2002000F#32,
      counta := ⟨0#16, 0#2⟩, countb := ⟨0#16, 0#2⟩,
      cmpe := 0#32, cmpf := 0#32, cmpg := 0#32, cmph := 0#32,
      lctrl1 := 0#32, lctrl2 := 0#32, ictrl := 0#32, bar := 0#32 }
  mode := ⟨false, false, false, false⟩
  port :=
    { shift := 0#35, tecr := ⟨false, false, false, false, false, false, false, false, false⟩,
      dlip := false, dlEnd := false, dlStore := false,
      pValid := false, pSeq := false, pInt := false, dsdo := [] }
  trace :=
    { vsyncChanged := false, vsyncHeld := 0, mark := FetchMark.plain, isct := 0#3, vfDec := .type,
      events := [], pins := WatchPins.quiet }
  ext :=
    { inputs := [], moduleBrk := false, extInt := false, decr := false, nmi := false, machineCheck := false,
      cpuExc := none,
      pins := ⟨false, false, false⟩ }
  mem := []
  draws := 0
  syncedA := false
  syncedB := false
  nmbrkTaken := false

end State

end Sys2Proof.Machine
end

