-- ==== Sys2Proof/Machine/Operands.lean ====
section
/-! DEFINITION. The operands: general registers, the MSR as a word, the fields of the control registers, the
effective address of `stwu`, and what each special register stores of a written word. -/

namespace Sys2Proof.Machine

/-! ### General registers (10_state.md R53) -/

/-- `x[r]`. -/
def readGpr (r : Reg) (s : State) : Word := s.cpu.gpr[r.toNat]'(r.isLt)

/-- `x[r] <- v`. No register is special (91_not_in_source.md N1, log 3). -/
def writeGpr (r : Reg) (v : Word) (s : State) : State :=
  { s with cpu.gpr := s.cpu.gpr.set r.toNat v r.isLt }

/-- `EA <- (x[rA] + sext_32(d)) mod 2^32` (43_cpu_instructions.md R417). -/
def effectiveAddress (ra : Reg) (d : Int) (s : State) : Word := readGpr ra s + BitVec.ofInt 32 d

/-! ### The MSR as a word (93_implementation_defined.md GK4; PRESUMED, unsafe: log 1) -/

/-- The positions of the named MSR bits EE 16, PR 17, ME 19, SE 21, BE 22 and RI 30. -/
def msrNamedMask : Word := 0x0000D602#32

/-- The MSR a 32-bit word stands for. -/
def msrOfWord (w : Word) : Msr where
  ee := w.getMsbD 16
  pr := w.getMsbD 17
  me := w.getMsbD 19
  se := w.getMsbD 21
  be := w.getMsbD 22
  ri := w.getMsbD 30
  other := w &&& ~~~msrNamedMask

/-- The word that holds the named bits of an MSR at their positions and 0 elsewhere. -/
def msrNamedBits (m : Msr) : Word :=
  (if m.ee then 0x00008000#32 else 0#32) ||| (if m.pr then 0x00004000#32 else 0#32) |||
  (if m.me then 0x00001000#32 else 0#32) ||| (if m.se then 0x00000400#32 else 0#32) |||
  (if m.be then 0x00000200#32 else 0#32) ||| (if m.ri then 0x00000002#32 else 0#32)

/-- The bit of SRR1 that holds bit `k` of the MSR image; the layout is open (92_eei_decisions.md D7, log 12). -/
def srr1Bit (srr1 : Word) (k : Fin 32) : Bool := srr1.getMsbD (Config.srr1Position k).val

/-- An MSR image laid out as SRR1. -/
def toSrr1 (image : Word) : Word := BitVec.ofFnBE fun p => image.getMsbD (Config.srr1Position.symm p).val

/-- The MSR image SRR1 holds. -/
def ofSrr1 (srr1 : Word) : Word := BitVec.ofFnBE fun k => srr1Bit srr1 k

/-- What an exception saves in SRR1: the MSR image in the bits `rfi` restores, the rest open
(92_eei_decisions.md D7, log 12). -/
def srr1Image (e : Option Event) (m : Msr) : Word :=
  toSrr1 (msrNamedBits m ||| (Config.srr1Rest e m &&& ~~~msrNamedMask))

/-- The MSR after `rfi`: the named bits from SRR1, the rest open (R413, log 14). -/
def msrFromSrr1 (srr1 : Word) (old : Msr) : Msr :=
  { msrOfWord (ofSrr1 srr1) with other := Config.rfiOther srr1 old &&& ~~~msrNamedMask }

/-! ### ICTRL fields (10_state.md R26, R27) -/

/-- CTA. -/
def ictrlCta (w : Word) : BitVec 3 := w.extractLsb' 29 3
/-- CTB. -/
def ictrlCtb (w : Word) : BitVec 3 := w.extractLsb' 26 3
/-- CTC. -/
def ictrlCtc (w : Word) : BitVec 3 := w.extractLsb' 23 3
/-- CTD. -/
def ictrlCtd (w : Word) : BitVec 3 := w.extractLsb' 20 3
/-- IWP0. -/
def ictrlIwp0 (w : Word) : BitVec 2 := w.extractLsb' 18 2
/-- IWP1. -/
def ictrlIwp1 (w : Word) : BitVec 2 := w.extractLsb' 16 2
/-- IWP2. -/
def ictrlIwp2 (w : Word) : BitVec 2 := w.extractLsb' 14 2
/-- IWP3. -/
def ictrlIwp3 (w : Word) : BitVec 2 := w.extractLsb' 12 2
/-- SIWP0EN to SIWP3EN, bits 20 to 23. -/
def ictrlSiwpEn (w : Word) (n : Nat) : Bool := w.getMsbD (20 + n)
/-- IFM, bit 28. -/
def ictrlIfm (w : Word) : Bool := w.getMsbD 28
/-- ISCT_SER, bits 29:31. -/
def ictrlIsct (w : Word) : BitVec 3 := w.extractLsb' 0 3

/-- The mask of IFM. -/
def ifmMask : Word := 0x00000008#32

/-- ICTRL with IFM set to a value (41_watchpoints_breakpoints.md R262, R286). -/
def setIfm (b : Bool) (w : Word) : Word := (w &&& ~~~ifmMask) ||| (if b then ifmMask else 0#32)

/-! ### LCTRL1 fields (10_state.md R28) -/

/-- CTE. -/
def lctrl1Cte (w : Word) : BitVec 3 := w.extractLsb' 29 3
/-- CTF. -/
def lctrl1Ctf (w : Word) : BitVec 3 := w.extractLsb' 26 3
/-- CTG. -/
def lctrl1Ctg (w : Word) : BitVec 3 := w.extractLsb' 23 3
/-- CTH. -/
def lctrl1Cth (w : Word) : BitVec 3 := w.extractLsb' 20 3
/-- CRWE. -/
def lctrl1Crwe (w : Word) : BitVec 2 := w.extractLsb' 18 2
/-- CRWF. -/
def lctrl1Crwf (w : Word) : BitVec 2 := w.extractLsb' 16 2
/-- CSG. -/
def lctrl1Csg (w : Word) : BitVec 2 := w.extractLsb' 14 2
/-- CSH. -/
def lctrl1Csh (w : Word) : BitVec 2 := w.extractLsb' 12 2
/-- SUSG. -/
def lctrl1Susg (w : Word) : Bool := w.getMsbD 20
/-- SUSH. -/
def lctrl1Sush (w : Word) : Bool := w.getMsbD 21
/-- CGBMSK. -/
def lctrl1Cgbmsk (w : Word) : BitVec 4 := w.extractLsb' 6 4
/-- CHBMSK. -/
def lctrl1Chbmsk (w : Word) : BitVec 4 := w.extractLsb' 2 4

/-! ### LCTRL2 fields (10_state.md R29) -/

/-- The fields of LCTRL2 that program one load/store watchpoint. -/
structure LwpFields where
  en : Bool
  ia : BitVec 2
  iadc : Bool
  la : BitVec 2
  ladc : Bool
  ld : BitVec 2
  lddc : Bool
deriving DecidableEq, Repr

/-- LW0EN to LW0LDDC, bits 0 to 9. -/
def lctrl2Lw0 (w : Word) : LwpFields :=
  ⟨w.getMsbD 0, w.extractLsb' 29 2, w.getMsbD 3, w.extractLsb' 26 2, w.getMsbD 6, w.extractLsb' 23 2, w.getMsbD 9⟩
/-- LW1EN to LW1LDDC, bits 10 to 19. -/
def lctrl2Lw1 (w : Word) : LwpFields :=
  ⟨w.getMsbD 10, w.extractLsb' 19 2, w.getMsbD 13, w.extractLsb' 16 2, w.getMsbD 16, w.extractLsb' 13 2,
    w.getMsbD 19⟩
/-- BRKNOMSK, bit 20. -/
def lctrl2Brknomsk (w : Word) : Bool := w.getMsbD 20
/-- SLW0EN and SLW1EN, bits 30 and 31. -/
def lctrl2SlwEn (w : Word) (k : Nat) : Bool := w.getMsbD (30 + k)

/-! ### What a write stores and a read returns (43_cpu_instructions.md R396 to R411) -/

/-- The defined bits of ECR and DER (10_state.md R34, R36). -/
def causeMask : Word := 0x73E7540F#32
/-- The writable bits of ICTRL: 0:23 and 28:31 (R26, R410). -/
def ictrlWritable : Word := 0xFFFFFF0F#32
/-- The writable bits of LCTRL1: 0:29 (R28, R408). -/
def lctrl1Writable : Word := 0xFFFFFFFC#32
/-- The writable bits of LCTRL2: 0:20 and 30:31 (R29, R409). -/
def lctrl2Writable : Word := 0xFFFFF803#32
/-- The reserved bits of LCTRL2: 21:27 (R29). -/
def lctrl2Reserved : Word := 0x000007F0#32

/-- The TECR bits ICTRL[24:27] reflect (10_state.md R27, R41). -/
def tecrIctrlBits (t : Tecr) : Word :=
  (if t.iw0 then 0x80#32 else 0#32) ||| (if t.iw1 then 0x40#32 else 0#32) |||
  (if t.iw2 then 0x20#32 else 0#32) ||| (if t.iw3 then 0x10#32 else 0#32)

/-- The TECR bits LCTRL2[28:29] reflect (10_state.md R29, R41). -/
def tecrLctrl2Bits (t : Tecr) : Word :=
  (if t.lw0 then 0x8#32 else 0#32) ||| (if t.lw1 then 0x4#32 else 0#32)

/-- `v` with the reserved bits of `mask` replaced by free values (`RESERVED_READ`, D10, log 17). -/
def withReserved (mask v free : Word) : Word := (v &&& ~~~mask) ||| (free &&& mask)

end Sys2Proof.Machine
end

