-- ==== Sys2Proof/Machine/Flags.lean ====
section
/-! DEFINITION. The flag-like bits: the ECR and DER bit of each event, when an event is recognised, which
trap enables and requests stand, and the status code of the port's next output frame. The hardware has no
condition codes (10_state.md R55). -/

namespace Sys2Proof.Machine

/-- The ECR and DER mask of an event: bit `n` of 60_exceptions.md R441 is `1 << (31 - n)`. -/
def eventMask : Event → Word
  | .nmi => 0x40000000#32
  | .checkStop => 0x20000000#32
  | .machineCheck => 0x10000000#32
  | .itlbError => 0x00001000#32
  | .dtlbError => 0x00000400#32
  | .extInt => 0x02000000#32
  | .alignment => 0x01000000#32
  | .program => 0x00800000#32
  | .fpUnavail => 0x00400000#32
  | .fpAssist => 0x00010000#32
  | .decrementer => 0x00200000#32
  | .sysCall => 0x00040000#32
  | .trace => 0x00020000#32
  | .softEmul => 0x00004000#32
  | .instrBreak => 0x00000004#32
  | .loadStoreBreak => 0x00000008#32
  | .extBreak => 0x00000002#32
  | .devPortInt => 0x00000001#32

/-- The event's DER bit is set. -/
def eventEnabled (e : Event) (s : State) : Bool := s.dev.der &&& eventMask e != 0#32

/-- Some cause bit is set whose DER bit is set: `(ECR and DER) != 0`. -/
def causePending (s : State) : Bool := s.dev.ecr &&& s.dev.der != 0#32

/-- Internal breakpoints are recognised: `LCTRL2.BRKNOMSK = 1 or MSR.RI = 1`
(41_watchpoints_breakpoints.md R250). -/
def recognised (s : State) : Bool := lctrl2Brknomsk s.dev.lctrl2 || s.cpu.msr.ri

/-- `IENn` (41_watchpoints_breakpoints.md R243, R283). -/
def instrTrapEnable (s : State) : Nat → Bool
  | 0 => ictrlSiwpEn s.dev.ictrl 0 || s.port.tecr.iw0
  | 1 => ictrlSiwpEn s.dev.ictrl 1 || s.port.tecr.iw1
  | 2 => ictrlSiwpEn s.dev.ictrl 2 || s.port.tecr.iw2
  | _ => ictrlSiwpEn s.dev.ictrl 3 || s.port.tecr.iw3

/-- `LENk` (41_watchpoints_breakpoints.md R272, R283). -/
def loadStoreTrapEnable (s : State) : Nat → Bool
  | 0 => lctrl2SlwEn s.dev.lctrl2 0 || s.port.tecr.lw0
  | _ => lctrl2SlwEn s.dev.lctrl2 1 || s.port.tecr.lw1

/-- The event a machine check condition is: 2 with MSR.ME = 0, 3 with MSR.ME = 1 (60_exceptions.md R441, R455). -/
def machineCheckEvent (s : State) : Event := if s.cpu.msr.me then .machineCheck else .checkStop

/-- The asynchronous events that are asserted and recognised between two instructions while the CPU is not in
debug mode (60_exceptions.md R441, R446 to R448, R455). -/
def pendingEvents (s : State) : List Event :=
  (if s.ext.nmi then [.nmi] else []) ++
  (if s.ext.machineCheck then [machineCheckEvent s] else []) ++
  (if s.ext.extInt && s.cpu.msr.ee then [.extInt] else []) ++
  (if s.ext.decr && s.cpu.msr.ee then [.decrementer] else []) ++
  (if (s.port.tecr.mbrk || s.ext.moduleBrk) && s.cpu.msr.ri then [.extBreak] else []) ++
  (if s.port.tecr.nmbrk then [.devPortInt] else [])

/-- Which of simultaneous events is taken: the one, or the choice of `EVENT_PRIORITY` (D11, log 15). -/
def pickEvent (first : Event) (rest : List Event) : Event :=
  match rest with
  | [] => first
  | _ :: _ => (first :: rest).getD (Config.eventPriority (first :: rest) % (rest.length + 1)) first

/-! ### The port's flags -/

/-- Ready is asserted (42_development_port.md R327, R328). -/
def portReady (s : State) : Bool := !s.mode.dm || s.cpu.wait != CpuWait.none

/-- Status codes of an output frame (30_encoding.md R148). -/
inductive OutStatus where
  | validData
  | sequencingError
  | cpuInterrupt
  | null
deriving DecidableEq, Repr

/-- The code of a status (R148). -/
def outStatusCode : OutStatus → BitVec 2
  | .validData => 0b00#2
  | .sequencingError => 0b01#2
  | .cpuInterrupt => 0b10#2
  | .null => 0b11#2

/-- The status of the next output frame, by priority (42_development_port.md R330, R332). Outside debug mode the
valid data and CPU interrupt status cannot occur (30_encoding.md R148, log 42). -/
def outStatus (s : State) : OutStatus :=
  if s.mode.dm && s.port.pValid then .validData
  else if s.port.pSeq then .sequencingError
  else if s.mode.dm && s.port.pInt then .cpuInterrupt
  else .null

/-! ### The status pins (30_encoding.md R154, R155)

Which flush counts occur is the pipeline's matter and no step predicts one (40_program_trace.md R194, log 30). -/

/-- VF[0:2] while it tells how many instructions were flushed from the instruction queue (R154). -/
def queueFlushCode (n : Fin 6) : BitVec 3 := BitVec.ofNat 3 n.val

/-- VFLS[0:1] outside freeze: how many instructions were flushed from the history buffer (R155). -/
def historyFlushCode (n : Fin 3) : BitVec 2 := BitVec.ofNat 2 n.val

/-- VFLS[0:1] in a clock in which `flushed` instructions leave the history buffer: 11 exactly while FRZ = 1, else the
count (R155; 60_exceptions.md R483, 40_program_trace.md R193). -/
def vflsPins (flushed : Fin 3) (s : State) : BitVec 2 :=
  if s.mode.frz then 0b11#2 else historyFlushCode flushed

end Sys2Proof.Machine
end

