-- ==== Sys2Proof/Machine/Ops.lean ====
section
/-! DEFINITION. The named operations: free values, memory, the trace reports, taking an exception, debug mode
entry, the return from an exception, the CPU's next fetch in debug mode, and reset. -/

namespace Sys2Proof.Machine

/-! ### Free values (00_scope.md `draw`, log 16) -/

/-- The `k`-th 32-bit free value from here. -/
def freeWord (k : Nat) (s : State) : Word := Config.freeWord (s.draws + k)

/-- The `k`-th free Boolean from here. -/
def freeBool (k : Nat) (s : State) : Bool := Config.freeBool (s.draws + k)

/-- The `k`-th 16-bit free value from here. -/
def freeHalf (k : Nat) (s : State) : BitVec 16 := (freeWord k s).extractLsb' 0 16

/-- `k` free values are used up. -/
def spend (k : Nat) (s : State) : State := { s with draws := s.draws + k }

/-! ### Memory (20_memory.md R103, R104; canonical form: log 8) -/

/-- The byte at an address, if something has written it. -/
def memRead (a : Nat) : List Host.Cell → Option Byte
  | [] => none
  | (b, v) :: m => if a = b then some v else memRead a m

/-- Writes one byte, keeping the addresses strictly rising. -/
def memWrite (a : Nat) (v : Byte) : List Host.Cell → List Host.Cell
  | [] => [(a, v)]
  | (b, u) :: m =>
    if a < b then (a, v) :: (b, u) :: m
    else if a = b then (a, v) :: m
    else (b, u) :: memWrite a v m

/-- Addresses strictly rising from `lo` on, and below 2^32. -/
def Memory.wfFrom : Nat → List Host.Cell → Bool
  | _, [] => true
  | lo, (a, _) :: m => decide (lo ≤ a) && decide (a < 2 ^ 32) && Memory.wfFrom (a + 1) m

/-- The canonical form: addresses strictly rising and below 2^32. No value is what an unlisted address
reads as, so no entry is superfluous. -/
def Memory.wf (m : List Host.Cell) : Bool := Memory.wfFrom 0 m

/-- The address of byte `k` of a word at `a`; addresses wrap at 2^32 (log 44). -/
def byteAddr (a : Word) (k : Nat) : Nat := (a + BitVec.ofNat 32 k).toNat

/-- Stores a word big-endian: lane 0 at `a` (R103, R417). -/
def memWriteWord (a v : Word) (m : List Host.Cell) : List Host.Cell :=
  memWrite (byteAddr a 3) (lane v 3) (memWrite (byteAddr a 2) (lane v 2)
    (memWrite (byteAddr a 1) (lane v 1) (memWrite (byteAddr a 0) (lane v 0) m)))

/-- The word at an address, big-endian, if all its bytes have been written. -/
def memReadWord (a : Word) (m : List Host.Cell) : Option Word :=
  match memRead (byteAddr a 0) m, memRead (byteAddr a 1) m, memRead (byteAddr a 2) m, memRead (byteAddr a 3) m with
  | some b0, some b1, some b2, some b3 => some (wordOfBytes b0 b1 b2 b3)
  | _, _, _, _ => none

/-- The bus value of a word stored at `a`: the byte for the address `a + k` travels on lane `(a + k)[30:31]` (R103), so
on an aligned address it is the word itself (R104). -/
def busWord (a v : Word) : Word :=
  let first := (a.extractLsb' 0 2).toNat
  wordOfBytes (lane v ((4 - first) % 4)) (lane v ((5 - first) % 4)) (lane v ((6 - first) % 4))
    (lane v ((7 - first) % 4))

/-- `MemWrite(a, 4, v)`: a load/store bus cycle (R106) that stores a word. Where the address is not a multiple of 4
the spec leaves the cycles of the access open (N39); the model makes one cycle of four bytes: DESIGN CHOICE, unsafe,
log 26. -/
def storeWord (a v : Word) (s : State) : State :=
  { s with
    mem := memWriteWord a v s.mem
    cpu.flight.cycles := s.cpu.flight.cycles ++ [⟨a, true, 4, busWord a v⟩] }

/-! ### Trace reports (40_program_trace.md) -/

/-- A type code after which the VF pins hold queue flush information (R187, Table 21-1). -/
def announcesFlush (code : BitVec 3) : Bool := code.getMsbD 0

/-- The CPU reports a type code on the VF pins. In debug mode the pins stay 000 (R195). -/
def reportType (code : BitVec 3) (s : State) : State :=
  if s.mode.dm then s
  else
    { s with
      trace.events := s.trace.events ++ [.typeCode code]
      trace.vfDec := if announcesFlush code then .flush else .type }

/-- Two sets of marks on one fetch. -/
def FetchMark.join (m n : FetchMark) : FetchMark := ⟨m.ptc || n.ptc, m.cof || n.cof, m.vsync || n.vsync⟩

/-- The next fetch carries these marks, and those it carries already. In debug mode fetches go to the port and
carry none. -/
def markNext (m : FetchMark) (s : State) : State :=
  if s.mode.dm then s else { s with trace.mark := s.trace.mark.join m }

/-- The marks of the fetch that follows an indirect change of flow (R183, R190, R192). -/
def FetchMark.indirect : FetchMark := ⟨true, true, false⟩

/-- Which fetches are shown on the external bus (R203, R204), by ISCT_SER[1:2] and VSYNC. -/
def fetchVisible (isctl : BitVec 2) (vsync : Bool) (m : FetchMark) : Bool :=
  match isctl.toNat with
  | 0 => true
  | 1 => m.cof || m.ptc
  | 2 => m.ptc
  | _ => m.ptc && (vsync || m.vsync)

/-- The fetch of the instruction at `pc` is made: it is shown if visible, and its marks are used up. While a negation
of VSYNC waits to be reported the marked addresses are not hidden (R198, log 51). -/
def showFetch (s : State) : State :=
  { s with
    trace.events :=
      if fetchVisible (s.trace.isct.extractLsb' 0 2) (s.port.tecr.vsync || s.trace.vsyncHeld != 0) s.trace.mark then
        s.trace.events ++ [.showCycle (s.cpu.pc.extractLsb' 2 30) s.trace.mark.ptc]
      else s.trace.events
    trace.mark := FetchMark.plain }

/-- VSYNC changed outside debug mode (R185, R196, R204): one report 011, and the next fetch is marked. -/
def vsyncEvent (s : State) : State :=
  markNext ⟨true, false, true⟩ (reportType 0b011#3 s)

/-- The first of the changes of VSYNC that wait is reported as soon as no marked address is left to be shown (R198).
Its own mark makes the next one wait, so that each change has its report (R196, log 51). -/
def reportHeldVsync (s : State) : State :=
  if s.trace.vsyncHeld != 0 && !s.trace.mark.ptc && !s.mode.dm then
    vsyncEvent { s with trace.vsyncHeld := s.trace.vsyncHeld - 1 }
  else s

/-! ### Completing an instruction -/

/-- `pc <- pc + 4` (43_cpu_instructions.md R390). -/
def advance (s : State) : State := { s with cpu.pc := s.cpu.pc + 4#32 }

/-- A sequential instruction completes: reported as 001. -/
def completeSequential (s : State) : State := reportType 0b001#3 (advance s)

/-- An instruction that acts like an indirect branch completes: reported as 101, the next fetch marked (R190). -/
def completeMarked (s : State) : State := markNext FetchMark.indirect (reportType 0b101#3 (advance s))

/-- An `mtspr` that is marked "in some cases" completes (R191, R422): either report (`INDIRECT_MTSPR`, log 21). -/
def completeMaybeMarked (s : State) : State :=
  if s.mode.dm then advance s
  else
    spend 1 (markNext ⟨freeBool 0 s, freeBool 0 s, false⟩
      (reportType (if freeBool 0 s then 0b101#3 else 0b001#3) (advance s)))

/-! ### Taking an exception (60_exceptions.md R450 to R460) -/

/-- SRR0 of an event: the address at which execution resumes where the spec decides it (D7: breakpoints and
asynchronous events), open for the CPU's own synchronous exceptions (log 12). -/
def srr0For (e : Event) (resume : Word) : Word :=
  match e with
  | .instrBreak | .loadStoreBreak | .extBreak | .devPortInt | .nmi | .extInt | .decrementer => resume
  | .checkStop | .machineCheck | .itlbError | .dtlbError | .alignment | .program | .fpUnavail | .fpAssist
  | .sysCall | .trace | .softEmul => Config.srr0Rule e resume

/-- The address of an event's handler (`VEC(E)`, D6, log 11). -/
def vectorOf (e : Event) (m : Msr) : Word := Config.vectorWord e m ++ 0#2

/-- `ECR.bit(E) <- 1`, and freeze if the event is enabled (R450, R481). -/
def recordCause (e : Event) (s : State) : State :=
  { s with
    dev.ecr := s.dev.ecr ||| eventMask e
    mode.frz := s.mode.frz || eventEnabled e s }

/-- What `MSR_ENTRY_RULE` leaves open, at the positions of no named bit and in the named bits the spec does not fix
(92_eei_decisions.md D7, log 13). -/
def msrEntryRule (e : Option Event) (m : Msr) : Msr :=
  { Config.msrEntry e m with other := (Config.msrEntry e m).other &&& ~~~msrNamedMask }

/-- The MSR after a regular exception: RI, EE and PR are 0 (R451, R488), the rest is `MSR_ENTRY_RULE` (log 13). -/
def msrAfterException (e : Event) (m : Msr) : Msr :=
  { msrEntryRule (some e) m with ri := false, ee := false, pr := false }

/-- The MSR after debug mode entry: PR and EE are 0 (R452), every other bit is `MSR_ENTRY_RULE` (00_scope.md R3,
log 13). -/
def msrAfterDebugEntry (e : Option Event) (m : Msr) : Msr :=
  { msrEntryRule e m with ee := false, pr := false }

/-- Regular interrupt handling (R451). `srr0` is the saved restart address. -/
def regularException (e : Event) (srr0 : Word) (s : State) : State :=
  markNext FetchMark.indirect (reportType 0b100#3
    { s with
      cpu.srr0 := srr0
      cpu.srr1 := srr1Image (some e) s.cpu.msr
      cpu.msr := msrAfterException e s.cpu.msr
      cpu.pc := vectorOf e s.cpu.msr })

/-- Debug mode entry (R452): report 100 and one marked cycle at an address the spec does not give, then the
CPU fetches from the port. R195 says that the cycle "is made visible externally" while R203 shows no cycle with
ISCTL = 11 and VSYNC = 0, and the spec does not say which holds; the model shows it whatever ISCTL and VSYNC are: DESIGN
CHOICE, unsafe, log 52. A change of VSYNC made before that still waits to be reported goes on waiting (log 51). -/
def enterDebug (e : Option Event) (srr0 : Word) (s : State) : State :=
  spend 1
    { s with
      cpu.srr0 := srr0
      cpu.srr1 := srr1Image e s.cpu.msr
      cpu.msr := msrAfterDebugEntry e s.cpu.msr
      cpu.wait := .instr
      mode.dm := true
      mode.frz := true
      trace.events := s.trace.events ++ [.typeCode 0b100#3, .showCycle ((freeWord 0 s).extractLsb' 0 30) true]
      trace.vfDec := .type
      trace.mark := FetchMark.plain }

/-- An event recognised in debug mode (R460): its ECR bit and the ECR_OR pulse, nothing else. -/
def recordInDebug (e : Event) (s : State) : State :=
  { s with
    dev.ecr := s.dev.ecr ||| eventMask e
    port.pInt := true }

/-- The CPU's trace facility traces an instruction (R444): every one in single-step mode; in branch trace mode those it
chooses, which the spec does not name: `free` (log 29). -/
def traceMode (free : Bool) (s : State) : Bool := s.cpu.msr.se || (s.cpu.msr.be && free)

/-- The instruction in flight takes an exception instead of completing. -/
def markExcepted (s : State) : State := { s with cpu.flight.excepted := true }

/-- Where a recorded event goes: debug mode if it is enabled and debug mode is enabled, else its handler (R450). -/
def routeEvent (e : Event) (enabled : Bool) (srr0 : Word) (s : State) : State :=
  if enabled && s.mode.dme then enterDebug (some e) srr0 s else regularException e srr0 s

/-- `raise` for events recognised at the same moment (R450, R460, R485). All their ECR bits are set; one of
them is taken, by `EVENT_PRIORITY`; debug mode is entered once if any of them is enabled. -/
def raiseAll (first : Event) (rest : List Event) (resume : Word) (s : State) : State :=
  if s.mode.dm then markExcepted ((first :: rest).foldl (fun t e => recordInDebug e t) s)
  else
    markExcepted (routeEvent (pickEvent first rest) ((first :: rest).any (fun e => eventEnabled e s))
      (srr0For (pickEvent first rest) resume)
      ((first :: rest).foldl (fun t e => recordCause e t) s))

/-- `raise E` (R450; R460 in debug mode). -/
def raise (e : Event) (resume : Word) (s : State) : State := raiseAll e [] resume s

/-- SRR0 of a machine check condition: the next instruction's address where the condition is asynchronous (D7), open
where an instruction takes it (log 12). -/
def machineCheckSrr0 (async : Bool) (resume : Word) (s : State) : Word :=
  if async then resume else srr0For (machineCheckEvent s) resume

/-- A machine check condition (R455, Table 21-9), asynchronous or taken by an instruction (R441). With MSR.ME = 0 it is
event 2: debug mode or check stop. In debug mode it is recorded (R460, 91_not_in_source.md N26). -/
def raiseMachineCheck (async : Bool) (resume : Word) (s : State) : State :=
  if s.mode.dm then markExcepted (recordInDebug (machineCheckEvent s) s)
  else if s.cpu.msr.me || (eventEnabled .checkStop s && s.mode.dme) then
    markExcepted (routeEvent (machineCheckEvent s) (eventEnabled (machineCheckEvent s) s) (machineCheckSrr0 async resume s)
      (recordCause (machineCheckEvent s) s))
  else markExcepted { recordCause .checkStop s with cpu.checkStop := true }

/-- The program exception an instruction takes (43_cpu_instructions.md R395). -/
def programException (s : State) : State := raise .program s.cpu.pc s

/-- The event of an exception of the CPU other than a machine check. -/
def cpuExcEvent : CpuExc → Event
  | .machineCheck => .machineCheck
  | .itlbError => .itlbError
  | .dtlbError => .dtlbError
  | .alignment => .alignment
  | .program => .program
  | .fpUnavail => .fpUnavail
  | .fpAssist => .fpAssist
  | .sysCall => .sysCall
  | .softEmul => .softEmul

/-- A load/store type exception leaves "some significant value" in DAR and DSISR (10_state.md R56, R442, log 33). -/
def saveFaultAddress (e : CpuExc) (s : State) : State :=
  match e with
  | .alignment | .dtlbError | .machineCheck =>
    spend 2 { s with cpu.dar := freeWord 0 s, cpu.dsisr := freeWord 1 s }
  | .itlbError | .program | .fpUnavail | .fpAssist | .sysCall | .softEmul => s

/-- The instruction at `pc` takes an exception of the CPU (R441). -/
def raiseCpuExc (e : CpuExc) (s : State) : State :=
  match e with
  | .machineCheck => raiseMachineCheck false s.cpu.pc (saveFaultAddress e s)
  | .itlbError | .dtlbError | .alignment | .program | .fpUnavail | .fpAssist | .sysCall | .softEmul =>
    raise (cpuExcEvent e) s.cpu.pc (saveFaultAddress e s)

/-- An asynchronous event is taken before the instruction at `pc` (R441, R446, R447, R455). -/
def raiseAsync (e : Event) (s : State) : State :=
  if e == .machineCheck || e == .checkStop then raiseMachineCheck true s.cpu.pc (saveFaultAddress .machineCheck s)
  else raise e s.cpu.pc s

/-- An asynchronous machine check condition in debug mode is recorded (R455, R460, 91_not_in_source.md N26). -/
def recordMachineCheck (s : State) : State :=
  recordInDebug (machineCheckEvent s) (saveFaultAddress .machineCheck s)

/-! ### Returning from an exception (43_cpu_instructions.md R413, 60_exceptions.md R470 to R472) -/

/-- pc and MSR from SRR0 and SRR1, and the freeze rule R482. -/
def restoreContext (s : State) : State :=
  { s with
    cpu.pc := s.cpu.srr0.extractLsb' 2 30 ++ 0#2
    cpu.msr := msrFromSrr1 s.cpu.srr1 s.cpu.msr
    mode.frz := s.mode.frz && causePending s }

/-- Leaving debug mode (R470, 40_program_trace.md R195). R195 says that the first fetch "therefore is visible
externally", R203 shows none with ISCTL = 11 and VSYNC = 0 unless VSYNC changed (R204), and the spec does not say which
holds; the model follows R203 there and does not show it: DESIGN CHOICE, unsafe, log 52. -/
def leaveDebug (s : State) : State :=
  markNext ⟨true, true, s.trace.vsyncChanged⟩
    (reportType (if s.trace.vsyncChanged then 0b011#3 else 0b101#3)
      { s with mode.dm := false, cpu.wait := .none, trace.vsyncChanged := false })

/-- The return from an exception. In debug mode it leaves debug mode, and enters it again at once if an
enabled cause is left (R471). SRR0 of such an entry is open (`SRR_RULE`: D7 decides it for breakpoints and asynchronous
events only); the model saves the address the `rfi` returns to: DESIGN CHOICE, unsafe, log 12. -/
def returnFromException (s : State) : State :=
  if s.mode.dm then
    if causePending s && s.mode.dme then
      enterDebug none (s.cpu.srr0.extractLsb' 2 30 ++ 0#2) (leaveDebug (restoreContext s))
    else leaveDebug (restoreContext s)
  else markNext FetchMark.indirect (reportType 0b101#3 (restoreContext s))

/-! ### The CPU's next fetch in debug mode (42_development_port.md R350, R361) -/

/-- The two instructions of the fast download loop (30_encoding.md R162). -/
def downloadWord (store : Bool) : Word := if store then 0x97FE0004#32 else 0x7FF69AA6#32

/-- In debug mode a CPU that waits for nothing fetches: from the tool, or, during a download, from the port. Whether
such a fetch is a show cycle with ISCTL = 00 ("All fetch cycles", R203; "all fetch cycles access the development
port", R350) the spec does not say; the model shows none: DESIGN CHOICE, unsafe, log 30. -/
def fetchFromPort (s : State) : State :=
  if s.mode.dm && s.cpu.wait == CpuWait.none then
    if s.port.dlip then
      { s with cpu.dpir := some (downloadWord s.port.dlStore), port.dlStore := !s.port.dlStore }
    else { s with cpu.wait := .instr }
  else s

/-! ### Reset (70_reset_and_hazards.md R520 to R527) -/

/-- The values reset gives (R521). The registers it does not affect are kept; the CPU registers of which the
spec says nothing hold free values (log 5). A reset while TECR.VSYNC = 1 negates VSYNC (R521, D5); the spec does not
say whether this is a change that R196 reports, and the model reports no 011 and marks no fetch: DESIGN CHOICE, unsafe,
log 5. -/
def resetValues (s : State) : State :=
  { State.reset with
    cpu :=
      { State.reset.cpu with
        gpr := Vector.ofFn fun i => freeWord i.val s
        srr0 := freeWord 32 s
        srr1 := freeWord 33 s
        dar := freeWord 34 s
        dsisr := freeWord 35 s }
    dev :=
      { s.dev with
        ecr := State.reset.dev.ecr
        der := State.reset.dev.der
        counta := { s.dev.counta with cntc := 0#2 }
        countb := { s.dev.countb with cntc := 0#2 }
        lctrl1 := State.reset.dev.lctrl1
        lctrl2 := State.reset.dev.lctrl2
        ictrl := State.reset.dev.ictrl }
    mode :=
      { State.reset.mode with
        dme := s.ext.pins.dsckEnable
        clkMode := s.ext.pins.dsdiClock }
    port := { State.reset.port with dsdo := s.port.dsdo }
    trace := { State.reset.trace with events := s.trace.events }
    ext := { s.ext with nmi := false, machineCheck := false, cpuExc := none }
    mem := s.mem
    draws := s.draws + 36 }

/-- `Reset(kind)` with the configuration sequence (R520, R523 to R525). Both kinds do the same (D22). With
debug mode enabled and DSCK still held, debug mode is entered with ECR.DPI set (R524). -/
def resetMachine (_kind : ResetKind) (s : State) : State :=
  let r := resetValues s
  if s.ext.pins.dsckEnable && s.ext.pins.dsckHeld then
    { enterDebug (some .devPortInt) r.cpu.srr0 (recordCause .devPortInt r) with cpu.srr1 := r.cpu.srr1 }
  else r

end Sys2Proof.Machine
end

