-- ==== Sys2Proof/Machine/Mtspr.lean ====
section
/-! DEFINITION. `mtspr` of the seventeen development support registers (43_cpu_instructions.md R390 to R412): the
write protection of R393, then what each register stores. Reserved and read only bits ignore the write (D10, D25). -/

namespace Sys2Proof.Machine

/-- Table 21-16 (R393): in user mode a program exception; with debug mode enabled and outside debug mode the write
is not performed and the instruction completes; otherwise the write is performed. `complete` is how the
instruction is reported (R422). -/
def mtsprOp (rs : Reg) (write : Word → State → State) (complete : State → State) (s : State) :
    Host.Outcome State Fault Refusal :=
  if s.cpu.msr.pr then .next (programException s)
  else if s.mode.dme && !s.mode.dm then .next (complete s)
  else .next (complete (write (readGpr rs s) s))

/-- The 30 bits CMPA to CMPD store (R396). -/
def addressBits (v : Word) : BitVec 30 := v.extractLsb' 2 30

/-- The counter a word stores (R402). -/
def counterOfWord (v : Word) : Counter := ⟨v.extractLsb' 16 16, v.extractLsb' 0 2⟩

/-- In debug mode a word written to DPDR is loaded into the shift register and becomes valid data
(42_development_port.md R353); outside it the write is ignored (R357). -/
def writeDpdr (v : Word) (s : State) : State :=
  if s.mode.dm then
    { s with
      port.shift := s.port.shift.extractLsb' 32 3 ++ v
      port.pValid := true }
  else s

/-- `mtspr CMPA,rS` (SPR 144, R396). -/
def execMtsprCmpa (rs : Reg) (s : State) : Host.Outcome State Fault Refusal :=
  mtsprOp rs (fun v t => { t with dev.cmpa := addressBits v }) completeMaybeMarked s

/-- `mtspr CMPB,rS` (SPR 145, R397). -/
def execMtsprCmpb (rs : Reg) (s : State) : Host.Outcome State Fault Refusal :=
  mtsprOp rs (fun v t => { t with dev.cmpb := addressBits v }) completeMaybeMarked s

/-- `mtspr CMPC,rS` (SPR 146, R398). -/
def execMtsprCmpc (rs : Reg) (s : State) : Host.Outcome State Fault Refusal :=
  mtsprOp rs (fun v t => { t with dev.cmpc := addressBits v }) completeMaybeMarked s

/-- `mtspr CMPD,rS` (SPR 147, R399). -/
def execMtsprCmpd (rs : Reg) (s : State) : Host.Outcome State Fault Refusal :=
  mtsprOp rs (fun v t => { t with dev.cmpd := addressBits v }) completeMaybeMarked s

/-- `mtspr ECR,rS` (SPR 148, R400). The write is ignored. -/
def execMtsprEcr (rs : Reg) (s : State) : Host.Outcome State Fault Refusal :=
  mtsprOp rs (fun _ t => t) completeMaybeMarked s

/-- `mtspr DER,rS` (SPR 149, R401). -/
def execMtsprDer (rs : Reg) (s : State) : Host.Outcome State Fault Refusal :=
  mtsprOp rs (fun v t => { t with dev.der := v &&& causeMask }) completeMaybeMarked s

/-- `mtspr COUNTA,rS` (SPR 150, R402). -/
def execMtsprCounta (rs : Reg) (s : State) : Host.Outcome State Fault Refusal :=
  mtsprOp rs (fun v t => { t with dev.counta := counterOfWord v, syncedA := false }) completeSequential s

/-- `mtspr COUNTB,rS` (SPR 151, R403). -/
def execMtsprCountb (rs : Reg) (s : State) : Host.Outcome State Fault Refusal :=
  mtsprOp rs (fun v t => { t with dev.countb := counterOfWord v, syncedB := false }) completeSequential s

/-- `mtspr CMPE,rS` (SPR 152, R404). -/
def execMtsprCmpe (rs : Reg) (s : State) : Host.Outcome State Fault Refusal :=
  mtsprOp rs (fun v t => { t with dev.cmpe := v }) completeMaybeMarked s

/-- `mtspr CMPF,rS` (SPR 153, R405). -/
def execMtsprCmpf (rs : Reg) (s : State) : Host.Outcome State Fault Refusal :=
  mtsprOp rs (fun v t => { t with dev.cmpf := v }) completeMaybeMarked s

/-- `mtspr CMPG,rS` (SPR 154, R406). -/
def execMtsprCmpg (rs : Reg) (s : State) : Host.Outcome State Fault Refusal :=
  mtsprOp rs (fun v t => { t with dev.cmpg := v }) completeSequential s

/-- `mtspr CMPH,rS` (SPR 155, R407). -/
def execMtsprCmph (rs : Reg) (s : State) : Host.Outcome State Fault Refusal :=
  mtsprOp rs (fun v t => { t with dev.cmph := v }) completeSequential s

/-- `mtspr LCTRL1,rS` (SPR 156, R408). -/
def execMtsprLctrl1 (rs : Reg) (s : State) : Host.Outcome State Fault Refusal :=
  mtsprOp rs (fun v t => { t with dev.lctrl1 := v &&& lctrl1Writable }) completeSequential s

/-- `mtspr LCTRL2,rS` (SPR 157, R409). -/
def execMtsprLctrl2 (rs : Reg) (s : State) : Host.Outcome State Fault Refusal :=
  mtsprOp rs (fun v t => { t with dev.lctrl2 := v &&& lctrl2Writable }) completeSequential s

/-- `mtspr ICTRL,rS` (SPR 158, R410). -/
def execMtsprIctrl (rs : Reg) (s : State) : Host.Outcome State Fault Refusal :=
  mtsprOp rs (fun v t => { t with dev.ictrl := v &&& ictrlWritable }) completeMaybeMarked s

/-- `mtspr BAR,rS` (SPR 159, R411). -/
def execMtsprBar (rs : Reg) (s : State) : Host.Outcome State Fault Refusal :=
  mtsprOp rs (fun v t => { t with dev.bar := v }) completeSequential s

/-- `mtspr DPDR,rS` (SPR 630, R412). -/
def execMtsprDpdr (rs : Reg) (s : State) : Host.Outcome State Fault Refusal :=
  mtsprOp rs writeDpdr completeSequential s

end Sys2Proof.Machine
end

