-- ==== Sys2Proof/Machine/Mfspr.lean ====
section
/-! DEFINITION. `mfspr` of the seventeen development support registers (43_cpu_instructions.md R390 to R412): the
read protection of R392, then what each register returns. Reserved bits read as free values (D10, log 17). -/

namespace Sys2Proof.Machine

/-- Table 21-15 (R392): in user mode a program exception and nothing else; otherwise the read is performed.
`after` is what the read itself does to the machine. -/
def mfsprOp (rd : Reg) (value : State → Word) (after : State → State) (s : State) :
    Host.Outcome State Fault Refusal :=
  if s.cpu.msr.pr then .next (programException s)
  else .next (completeSequential (writeGpr rd (value s) (after s)))

/-- A register with the reserved bits of `mask`: the n-th free value stands in them. -/
def readReserved (mask : Word) (stored : State → Word) (s : State) : Word :=
  withReserved mask (stored s) (freeWord 0 s)

/-- The reserved bits 30:31 of CMPA to CMPD and LCTRL1 (10_state.md R22, R28). -/
def lowPairReserved : Word := 0x00000003#32

/-- The reserved bits 16:29 of COUNTA and COUNTB (10_state.md R31, R32). -/
def counterReserved : Word := 0x0000FFFC#32

/-- A counter reads exactly: it is not active or a `sync` came before, and the reading instruction is not one it
counts (R402, 41_watchpoints_breakpoints.md R280, log 22, log 23). -/
def counterReadable (c : Counter) (synced iwp : Bool) (s : State) : Bool :=
  (c.cntc == 0b00#2 || c.cntc == 0b11#2 || synced) &&
  !(c.cntc == 0b01#2 && iwp && recognised s && !s.mode.dm)

/-- The word of a counter: CNTV, the reserved bits, CNTC (R402). -/
def counterWord (c : Counter) (synced iwp : Bool) (s : State) : Word :=
  withReserved counterReserved
    ((if counterReadable c synced iwp s then c.cntv else freeHalf 1 s) ++ 0#14 ++ c.cntc) (freeWord 0 s)

/-- Reading the ECR clears it with debug mode disabled and in debug mode (R392, R400). -/
def clearEcrOnRead (s : State) : State :=
  if !s.mode.dme || s.mode.dm then { s with dev.ecr := 0#32 } else s

/-- `mfspr rD,CMPA` (SPR 144, R396). -/
def execMfsprCmpa (rd : Reg) (s : State) : Host.Outcome State Fault Refusal :=
  mfsprOp rd (readReserved lowPairReserved (fun t => t.dev.cmpa ++ 0#2)) (spend 1) s

/-- `mfspr rD,CMPB` (SPR 145, R397). -/
def execMfsprCmpb (rd : Reg) (s : State) : Host.Outcome State Fault Refusal :=
  mfsprOp rd (readReserved lowPairReserved (fun t => t.dev.cmpb ++ 0#2)) (spend 1) s

/-- `mfspr rD,CMPC` (SPR 146, R398). -/
def execMfsprCmpc (rd : Reg) (s : State) : Host.Outcome State Fault Refusal :=
  mfsprOp rd (readReserved lowPairReserved (fun t => t.dev.cmpc ++ 0#2)) (spend 1) s

/-- `mfspr rD,CMPD` (SPR 147, R399). -/
def execMfsprCmpd (rd : Reg) (s : State) : Host.Outcome State Fault Refusal :=
  mfsprOp rd (readReserved lowPairReserved (fun t => t.dev.cmpd ++ 0#2)) (spend 1) s

/-- `mfspr rD,ECR` (SPR 148, R400): the cause bits; the reserved bits read as free values (D10, U11, log 17). The read
may clear the register (10_state.md R35). -/
def execMfsprEcr (rd : Reg) (s : State) : Host.Outcome State Fault Refusal :=
  mfsprOp rd (readReserved (~~~causeMask) (fun t => t.dev.ecr)) (fun t => spend 1 (clearEcrOnRead t)) s

/-- `mfspr rD,DER` (SPR 149, R401). -/
def execMfsprDer (rd : Reg) (s : State) : Host.Outcome State Fault Refusal :=
  mfsprOp rd (readReserved (~~~causeMask) (fun t => t.dev.der)) (spend 1) s

/-- `mfspr rD,COUNTA` (SPR 150, R402). -/
def execMfsprCounta (rd : Reg) (s : State) : Host.Outcome State Fault Refusal :=
  mfsprOp rd (fun t => counterWord t.dev.counta t.syncedA t.cpu.flight.iwp0 t) (spend 2) s

/-- `mfspr rD,COUNTB` (SPR 151, R403). -/
def execMfsprCountb (rd : Reg) (s : State) : Host.Outcome State Fault Refusal :=
  mfsprOp rd (fun t => counterWord t.dev.countb t.syncedB t.cpu.flight.iwp1 t) (spend 2) s

/-- `mfspr rD,CMPE` (SPR 152, R404). -/
def execMfsprCmpe (rd : Reg) (s : State) : Host.Outcome State Fault Refusal :=
  mfsprOp rd (fun t => t.dev.cmpe) (fun t => t) s

/-- `mfspr rD,CMPF` (SPR 153, R405). -/
def execMfsprCmpf (rd : Reg) (s : State) : Host.Outcome State Fault Refusal :=
  mfsprOp rd (fun t => t.dev.cmpf) (fun t => t) s

/-- `mfspr rD,CMPG` (SPR 154, R406). -/
def execMfsprCmpg (rd : Reg) (s : State) : Host.Outcome State Fault Refusal :=
  mfsprOp rd (fun t => t.dev.cmpg) (fun t => t) s

/-- `mfspr rD,CMPH` (SPR 155, R407). -/
def execMfsprCmph (rd : Reg) (s : State) : Host.Outcome State Fault Refusal :=
  mfsprOp rd (fun t => t.dev.cmph) (fun t => t) s

/-- `mfspr rD,LCTRL1` (SPR 156, R408). -/
def execMfsprLctrl1 (rd : Reg) (s : State) : Host.Outcome State Fault Refusal :=
  mfsprOp rd (readReserved lowPairReserved (fun t => t.dev.lctrl1)) (spend 1) s

/-- `mfspr rD,LCTRL2` (SPR 157, R409). -/
def execMfsprLctrl2 (rd : Reg) (s : State) : Host.Outcome State Fault Refusal :=
  mfsprOp rd (readReserved lctrl2Reserved (fun t => t.dev.lctrl2 ||| tecrLctrl2Bits t.port.tecr)) (spend 1) s

/-- `mfspr rD,ICTRL` (SPR 158, R410). -/
def execMfsprIctrl (rd : Reg) (s : State) : Host.Outcome State Fault Refusal :=
  mfsprOp rd (fun t => t.dev.ictrl ||| tecrIctrlBits t.port.tecr) (fun t => t) s

/-- `mfspr rD,BAR` (SPR 159, R411). -/
def execMfsprBar (rd : Reg) (s : State) : Host.Outcome State Fault Refusal :=
  mfsprOp rd (fun t => t.dev.bar) (fun t => t) s

/-- `mfspr rD,DPDR` (SPR 630, R412). In debug mode the CPU waits for a data transmission
(42_development_port.md R352); outside it the value is indeterminate and nothing waits (R357, U2). -/
def execMfsprDpdr (rd : Reg) (s : State) : Host.Outcome State Fault Refusal :=
  if s.cpu.msr.pr then .next (programException s)
  else if s.mode.dm then .next (completeSequential { s with cpu.wait := .data rd })
  else .next (completeSequential (writeGpr rd (freeWord 0 s) (spend 1 s)))

end Sys2Proof.Machine
end

