-- ==== Sys2Proof/Machine/Port.lean ====
section
/-! DEFINITION. The development port: the handshake, the output frame, and the meaning of every transmission
with a function (42_development_port.md R325 to R364). A meaning takes one complete transmission. -/

namespace Sys2Proof.Machine

/-! ### The output frame (R330, R331) -/

/-- The 32 data bits of the next output frame: the word the CPU wrote to DPDR, or freeze, `1 - DLIP` and ones. -/
def outData (s : State) : Word :=
  match outStatus s with
  | .validData => s.port.shift.extractLsb' 0 32
  | .sequencingError | .cpuInterrupt | .null =>
    BitVec.ofBool s.mode.frz ++ BitVec.ofBool (!s.port.dlip) ++ 0x3FFFFFFF#30

/-- The output frame that leaves while an input frame is shifted in: ready (0), status, data of the input's length
(30_encoding.md R147 to R149). -/
def outFrame (input : Frame) (s : State) : Frame :=
  match input with
  | .long _ => .long (0#1 ++ outStatusCode (outStatus s) ++ outData s)
  | .short _ => .short (0#1 ++ outStatusCode (outStatus s) ++ (outData s).extractLsb' 25 7)

/-- The flag that was reported is cleared. A short frame carries 7 of the 32 data bits; whether the rest is lost
is open (R335, D14, log 35). -/
def clearReported (input : Frame) (s : State) : State :=
  match outStatus s, input with
  | .validData, .long _ => { s with port.pValid := false }
  | .validData, .short _ => spend 1 { s with port.pValid := freeBool 0 s }
  | .sequencingError, _ => { s with port.pSeq := false }
  | .cpuInterrupt, _ => { s with port.pInt := false }
  | .null, _ => s

/-- The input frame is shifted in, unless the CPU's data are still to be shifted out (log 35). -/
def shiftIn (input : Frame) (s : State) : State :=
  if s.port.pValid then s
  else
    match input with
    | .long b => { s with port.shift := b }
    | .short b => { s with port.shift := (s.port.shift <<< 10) ||| b.setWidth 35 }

/-- The serial exchange of one transmission. -/
def exchange (input : Frame) (s : State) : State :=
  shiftIn input (clearReported input { s with port.dsdo := s.port.dsdo ++ [outFrame input s] })

/-- The port acts on the input frame (R333): not while it reports an error. -/
def inputActedOn (s : State) : Bool :=
  match outStatus s with
  | .sequencingError | .cpuInterrupt => false
  | .validData | .null => true

/-- One complete transmission (R325 to R333): the exchange, then the effect of the input frame. A transmission
may start only when ready is asserted (R326, log 43). R330 evaluates the status "when ready is asserted" and does not say
what a cause recorded after that and before the frame starts does to it (an NMI or a machine check in debug mode,
`assertNmi`, `assertMachineCheck`); the model evaluates the status, and with it the freeze and download bits of R331, at
the transmission, so this frame already reports 10 and its input is ignored: DESIGN CHOICE, unsafe, log 54. -/
def transmit (input : Frame) (effect : State → State) (s : State) :
    Host.Outcome State Fault Refusal :=
  if portReady s then
    .next (if inputActedOn s then effect (exchange input s) else exchange input s)
  else .refused .portNotReady

/-- The frame of a command (30_encoding.md R144). -/
def commandFrame (ext : BitVec 2) (major : BitVec 5) : Frame := .short (0b111#3 ++ ext ++ major)

/-! ### Effects -/

/-- A sequencing error (R336, R354, R355). -/
def sequencingError (s : State) : State := { s with port.pSeq := true }

/-- The ECR bit a bus error on DPDR sets: MCE or DTLBER, open (R355, N17, log 36). -/
def busErrorBit (k : Nat) (s : State) : Word :=
  if freeBool k s then eventMask .machineCheck else eventMask .dtlbError

/-- The outstanding read of DPDR ends with a bus error (R355): the register, the cause bit, DAR and DSISR are free
(log 36), and the CPU goes on to its next fetch. -/
def dpdrBusError (rd : Reg) (s : State) : State :=
  fetchFromPort (spend 4
    { writeGpr rd (freeWord 0 s) s with
      dev.ecr := s.dev.ecr ||| busErrorBit 1 s
      cpu.dar := freeWord 2 s
      cpu.dsisr := freeWord 3 s
      cpu.wait := .none
      port.pSeq := true
      port.pInt := true })

/-- `INSTR(w)` (R336, R350, R355). -/
def instrEffect (w : Word) (s : State) : State :=
  if s.mode.dm then
    match s.cpu.wait with
    | .instr => { s with cpu.dpir := some w, cpu.wait := .none }
    | .data rd => dpdrBusError rd s
    | .none => s
  else sequencingError s

/-- The data word after an end download command ends the procedure (R363). -/
def endDownload (s : State) : State :=
  if s.port.dlip && s.port.dlEnd then
    { s with port.dlip := false, port.dlEnd := false, port.dlStore := false }
  else s

/-- The data word completes the outstanding read of DPDR (R351, R352). The trace event of the `mfspr` is then recorded,
before the next fetch, and its destination is free (60_exceptions.md R444, R460, log 29). -/
def completeRead (rd : Reg) (v : Word) (s : State) : State :=
  if traceMode (freeBool 0 s) s then
    spend 2 (writeGpr rd (freeWord 1 s) (recordInDebug .trace { s with cpu.wait := .none }))
  else spend 1 { writeGpr rd v s with cpu.wait := .none }

/-- `DATA(v)` (R336, R351, R354, R363). -/
def dataEffect (v : Word) (s : State) : State :=
  if s.mode.dm then
    match s.cpu.wait with
    | .instr => sequencingError s
    | .data rd => fetchFromPort (endDownload (completeRead rd v s))
    | .none => s
  else sequencingError s

/-- The TECR after a trap enable transmission: MBRK and NMBRK unchanged (R340, 30_encoding.md R143). -/
def loadTecr (layout : TecrLayout) (d : BitVec 7) (t : Tecr) : Tecr :=
  { t with
    iw0 := d.getMsbD (layout 0)
    iw1 := d.getMsbD (layout 1)
    iw2 := d.getMsbD (layout 2)
    iw3 := d.getMsbD (layout 3)
    lw0 := d.getMsbD (layout 4)
    lw1 := d.getMsbD (layout 5)
    vsync := d.getMsbD (layout 6) }

/-- The report of a change of VSYNC waits: behind another that waits, for the fetch that an earlier report marked, so that
no two reports share one marked fetch and none follows another at once (40_program_trace.md R196, R197), and, for a
negation, for every marked address (R198). For an assertion the spec states no delay: that it waits for the fetch marked
by an earlier report is a DESIGN CHOICE, unsafe, log 51. -/
def vsyncMustWait (s : State) : Bool :=
  s.trace.vsyncHeld != 0 || s.trace.mark.vsync || (!s.port.tecr.vsync && s.trace.mark.ptc)

/-- VSYNC has changed to what the TECR holds (40_program_trace.md R195, R196, R198): in debug mode the change is
recorded; else it is reported, at once or after those it waits for. -/
def changeVsync (s : State) : State :=
  if s.mode.dm then { s with trace.vsyncChanged := true }
  else if vsyncMustWait s then { s with trace.vsyncHeld := s.trace.vsyncHeld + 1 }
  else vsyncEvent s

/-- `TECR(d)` (R340; 40_program_trace.md R196). -/
def tecrEffect (layout : TecrLayout) (d : BitVec 7) (s : State) : State :=
  let t := { s with port.tecr := loadTecr layout d s.port.tecr }
  if s.port.tecr.vsync == t.port.tecr.vsync then t else changeVsync t

/-- `CMD_BRK(n, m)` (R346, R347). -/
def brkEffect (n m : Bool) (s : State) : State :=
  { s with
    port.tecr.nmbrk := n
    port.tecr.mbrk := m
    nmbrkTaken := s.nmbrkTaken && n }

/-- A CPU that waits for an instruction when the download starts gets it from the port. -/
def supplyWaiting (s : State) : State :=
  if s.cpu.wait == CpuWait.instr then fetchFromPort { s with cpu.wait := .none } else s

/-- `CMD_START_DOWNLOAD` (R361; a no-op outside debug mode and while in progress, R364, D30, log 37). -/
def startDownloadEffect (s : State) : State :=
  if s.mode.dm && !s.port.dlip then
    supplyWaiting { s with port.dlip := true, port.dlEnd := false, port.dlStore := false }
  else s

/-- `CMD_END_DOWNLOAD` (R363; a no-op outside debug mode and while not in progress, R364, D30, log 37). -/
def endDownloadEffect (s : State) : State :=
  if s.mode.dm && s.port.dlip then { s with port.dlEnd := true } else s

/-! ### The meanings of the transmissions -/

/-- `INSTR(w)`. -/
def execInstr (w : Word) (s : State) : Host.Outcome State Fault Refusal :=
  transmit (.long (0b100#3 ++ w)) (instrEffect w) s

/-- `DATA(v)`. -/
def execData (v : Word) (s : State) : Host.Outcome State Fault Refusal :=
  transmit (.long (0b101#3 ++ v)) (dataEffect v) s

/-- `TECR(d)`. -/
def execTecr (d : BitVec 7) (s : State) : Host.Outcome State Fault Refusal :=
  transmit (.short (0b110#3 ++ d)) (tecrEffect Config.tecrLayout d) s

/-- `CMD_NOP` (R342): no state change beyond the exchange. -/
def execCmdNop (x : BitVec 2) (s : State) : Host.Outcome State Fault Refusal :=
  transmit (commandFrame x 0b00000#5) (fun t => t) s

/-- `CMD_HRESET` (R343). -/
def execCmdHreset (x : BitVec 2) (s : State) : Host.Outcome State Fault Refusal :=
  transmit (commandFrame x 0b00001#5) (resetMachine .hard) s

/-- `CMD_SRESET` (R344). -/
def execCmdSreset (x : BitVec 2) (s : State) : Host.Outcome State Fault Refusal :=
  transmit (commandFrame x 0b00010#5) (resetMachine .soft) s

/-- `CMD_END_DOWNLOAD` (R363). -/
def execCmdEndDownload (s : State) : Host.Outcome State Fault Refusal :=
  transmit (commandFrame 0b10#2 0b00011#5) endDownloadEffect s

/-- `CMD_START_DOWNLOAD` (R361). -/
def execCmdStartDownload (s : State) : Host.Outcome State Fault Refusal :=
  transmit (commandFrame 0b11#2 0b00011#5) startDownloadEffect s

/-- `CMD_BRK(n, m)` (R346). -/
def execCmdBrk (n m : Bool) (s : State) : Host.Outcome State Fault Refusal :=
  transmit (commandFrame (BitVec.ofBool n ++ BitVec.ofBool m) 0b11111#5) (brkEffect n m) s

end Sys2Proof.Machine
end

