-- ==== Sys2Proof/Machine/Reserved.lean ====
section
/-! DEFINITION. The reserved commands (30_encoding.md R145, R149): "Data values in the last two functions other than
those specified are reserved." The port accepts one, sets no state and answers it like `CMD_NOP`
(42_development_port.md R345, 93_implementation_defined.md U9, log 46). -/

namespace Sys2Proof.Machine

/-- `1110x00011`. -/
def execCmdReserved0x00011 (x : BitVec 1) (s : State) : Host.Outcome State Fault Refusal :=
  transmit (commandFrame (0#1 ++ x) 0b00011#5) (fun t => t) s

/-- `111xx00100`. -/
def execCmdReserved00100 (x : BitVec 2) (s : State) : Host.Outcome State Fault Refusal :=
  transmit (commandFrame x 0b00100#5) (fun t => t) s

/-- `111xx00101`. -/
def execCmdReserved00101 (x : BitVec 2) (s : State) : Host.Outcome State Fault Refusal :=
  transmit (commandFrame x 0b00101#5) (fun t => t) s

/-- `111xx00110`. -/
def execCmdReserved00110 (x : BitVec 2) (s : State) : Host.Outcome State Fault Refusal :=
  transmit (commandFrame x 0b00110#5) (fun t => t) s

/-- `111xx00111`. -/
def execCmdReserved00111 (x : BitVec 2) (s : State) : Host.Outcome State Fault Refusal :=
  transmit (commandFrame x 0b00111#5) (fun t => t) s

/-- `111xx01000`. -/
def execCmdReserved01000 (x : BitVec 2) (s : State) : Host.Outcome State Fault Refusal :=
  transmit (commandFrame x 0b01000#5) (fun t => t) s

/-- `111xx01001`. -/
def execCmdReserved01001 (x : BitVec 2) (s : State) : Host.Outcome State Fault Refusal :=
  transmit (commandFrame x 0b01001#5) (fun t => t) s

/-- `111xx01010`. -/
def execCmdReserved01010 (x : BitVec 2) (s : State) : Host.Outcome State Fault Refusal :=
  transmit (commandFrame x 0b01010#5) (fun t => t) s

/-- `111xx01011`. -/
def execCmdReserved01011 (x : BitVec 2) (s : State) : Host.Outcome State Fault Refusal :=
  transmit (commandFrame x 0b01011#5) (fun t => t) s

/-- `111xx01100`. -/
def execCmdReserved01100 (x : BitVec 2) (s : State) : Host.Outcome State Fault Refusal :=
  transmit (commandFrame x 0b01100#5) (fun t => t) s

/-- `111xx01101`. -/
def execCmdReserved01101 (x : BitVec 2) (s : State) : Host.Outcome State Fault Refusal :=
  transmit (commandFrame x 0b01101#5) (fun t => t) s

/-- `111xx01110`. -/
def execCmdReserved01110 (x : BitVec 2) (s : State) : Host.Outcome State Fault Refusal :=
  transmit (commandFrame x 0b01110#5) (fun t => t) s

/-- `111xx01111`. -/
def execCmdReserved01111 (x : BitVec 2) (s : State) : Host.Outcome State Fault Refusal :=
  transmit (commandFrame x 0b01111#5) (fun t => t) s

/-- `111xx10000`. -/
def execCmdReserved10000 (x : BitVec 2) (s : State) : Host.Outcome State Fault Refusal :=
  transmit (commandFrame x 0b10000#5) (fun t => t) s

/-- `111xx10001`. -/
def execCmdReserved10001 (x : BitVec 2) (s : State) : Host.Outcome State Fault Refusal :=
  transmit (commandFrame x 0b10001#5) (fun t => t) s

/-- `111xx10010`. -/
def execCmdReserved10010 (x : BitVec 2) (s : State) : Host.Outcome State Fault Refusal :=
  transmit (commandFrame x 0b10010#5) (fun t => t) s

/-- `111xx10011`. -/
def execCmdReserved10011 (x : BitVec 2) (s : State) : Host.Outcome State Fault Refusal :=
  transmit (commandFrame x 0b10011#5) (fun t => t) s

/-- `111xx10100`. -/
def execCmdReserved10100 (x : BitVec 2) (s : State) : Host.Outcome State Fault Refusal :=
  transmit (commandFrame x 0b10100#5) (fun t => t) s

/-- `111xx10101`. -/
def execCmdReserved10101 (x : BitVec 2) (s : State) : Host.Outcome State Fault Refusal :=
  transmit (commandFrame x 0b10101#5) (fun t => t) s

/-- `111xx10110`. -/
def execCmdReserved10110 (x : BitVec 2) (s : State) : Host.Outcome State Fault Refusal :=
  transmit (commandFrame x 0b10110#5) (fun t => t) s

/-- `111xx10111`. -/
def execCmdReserved10111 (x : BitVec 2) (s : State) : Host.Outcome State Fault Refusal :=
  transmit (commandFrame x 0b10111#5) (fun t => t) s

/-- `111xx11000`. -/
def execCmdReserved11000 (x : BitVec 2) (s : State) : Host.Outcome State Fault Refusal :=
  transmit (commandFrame x 0b11000#5) (fun t => t) s

/-- `111xx11001`. -/
def execCmdReserved11001 (x : BitVec 2) (s : State) : Host.Outcome State Fault Refusal :=
  transmit (commandFrame x 0b11001#5) (fun t => t) s

/-- `111xx11010`. -/
def execCmdReserved11010 (x : BitVec 2) (s : State) : Host.Outcome State Fault Refusal :=
  transmit (commandFrame x 0b11010#5) (fun t => t) s

/-- `111xx11011`. -/
def execCmdReserved11011 (x : BitVec 2) (s : State) : Host.Outcome State Fault Refusal :=
  transmit (commandFrame x 0b11011#5) (fun t => t) s

/-- `111xx11100`. -/
def execCmdReserved11100 (x : BitVec 2) (s : State) : Host.Outcome State Fault Refusal :=
  transmit (commandFrame x 0b11100#5) (fun t => t) s

/-- `111xx11101`. -/
def execCmdReserved11101 (x : BitVec 2) (s : State) : Host.Outcome State Fault Refusal :=
  transmit (commandFrame x 0b11101#5) (fun t => t) s

/-- `111xx11110`. -/
def execCmdReserved11110 (x : BitVec 2) (s : State) : Host.Outcome State Fault Refusal :=
  transmit (commandFrame x 0b11110#5) (fun t => t) s

end Sys2Proof.Machine
end

