-- ==== Sys2Proof/Machine/System.lean ====
section
/-! DEFINITION. `rfi`, `mtmsr`, `isync`, `sync` and `stwu` (43_cpu_instructions.md R413 to R417). -/

namespace Sys2Proof.Machine

/-- `rfi` (R413): privileged; the return from an exception. -/
def execRfi (s : State) : Host.Outcome State Fault Refusal :=
  if s.cpu.msr.pr then .next (programException s) else .next (returnFromException s)

/-- `mtmsr rS` (R414): privileged; `MSR <- x[rS]`, reported as an indirect branch. Setting EE in debug mode is
"strictly forbidden" (R462, U10, log 40). -/
def execMtmsr (rs : Reg) (s : State) : Host.Outcome State Fault Refusal :=
  if s.cpu.msr.pr then .next (programException s)
  else if s.mode.dm && (msrOfWord (readGpr rs s)).ee then .refused .eeInDebugMode
  else .next (completeMarked { s with cpu.msr := msrOfWord (readGpr rs s) })

/-- `isync` (R415): no register effect, reported as an indirect branch. -/
def execIsync (s : State) : Host.Outcome State Fault Refusal := .next (completeMarked s)

/-- `sync` (R416): no register effect; every earlier watchpoint has been counted. -/
def execSync (s : State) : Host.Outcome State Fault Refusal :=
  .next (completeSequential { s with syncedA := true, syncedB := true })

/-- `stwu rS,d(rA)` (R417): stores the word at the effective address, then `x[rA] <- EA`. -/
def execStwu (rs : Reg) (d : Int) (ra : Reg) (s : State) : Host.Outcome State Fault Refusal :=
  .next (completeSequential
    (writeGpr ra (effectiveAddress ra d s) (storeWord (effectiveAddress ra d s) (readGpr rs s) s)))

end Sys2Proof.Machine
end

