-- ==== Sys2Proof/Machine/Dispatch.lean ====
section
/-! DEFINITION. The dispatch: one arm per instruction, each one call of its meaning. -/

namespace Sys2Proof.Machine

def exec (i : Instr) (s : State) : Host.Outcome State Fault Refusal :=
  match i with
  | .instr w => Sys2Proof.Machine.execInstr w s
  | .data v => Sys2Proof.Machine.execData v s
  | .tecr d => Sys2Proof.Machine.execTecr d s
  | .cmdNop x => Sys2Proof.Machine.execCmdNop x s
  | .cmdHreset x => Sys2Proof.Machine.execCmdHreset x s
  | .cmdSreset x => Sys2Proof.Machine.execCmdSreset x s
  | .cmdReserved0x00011 x => Sys2Proof.Machine.execCmdReserved0x00011 x s
  | .cmdEndDownload => Sys2Proof.Machine.execCmdEndDownload s
  | .cmdStartDownload => Sys2Proof.Machine.execCmdStartDownload s
  | .cmdReserved00100 x => Sys2Proof.Machine.execCmdReserved00100 x s
  | .cmdReserved00101 x => Sys2Proof.Machine.execCmdReserved00101 x s
  | .cmdReserved00110 x => Sys2Proof.Machine.execCmdReserved00110 x s
  | .cmdReserved00111 x => Sys2Proof.Machine.execCmdReserved00111 x s
  | .cmdReserved01000 x => Sys2Proof.Machine.execCmdReserved01000 x s
  | .cmdReserved01001 x => Sys2Proof.Machine.execCmdReserved01001 x s
  | .cmdReserved01010 x => Sys2Proof.Machine.execCmdReserved01010 x s
  | .cmdReserved01011 x => Sys2Proof.Machine.execCmdReserved01011 x s
  | .cmdReserved01100 x => Sys2Proof.Machine.execCmdReserved01100 x s
  | .cmdReserved01101 x => Sys2Proof.Machine.execCmdReserved01101 x s
  | .cmdReserved01110 x => Sys2Proof.Machine.execCmdReserved01110 x s
  | .cmdReserved01111 x => Sys2Proof.Machine.execCmdReserved01111 x s
  | .cmdReserved10000 x => Sys2Proof.Machine.execCmdReserved10000 x s
  | .cmdReserved10001 x => Sys2Proof.Machine.execCmdReserved10001 x s
  | .cmdReserved10010 x => Sys2Proof.Machine.execCmdReserved10010 x s
  | .cmdReserved10011 x => Sys2Proof.Machine.execCmdReserved10011 x s
  | .cmdReserved10100 x => Sys2Proof.Machine.execCmdReserved10100 x s
  | .cmdReserved10101 x => Sys2Proof.Machine.execCmdReserved10101 x s
  | .cmdReserved10110 x => Sys2Proof.Machine.execCmdReserved10110 x s
  | .cmdReserved10111 x => Sys2Proof.Machine.execCmdReserved10111 x s
  | .cmdReserved11000 x => Sys2Proof.Machine.execCmdReserved11000 x s
  | .cmdReserved11001 x => Sys2Proof.Machine.execCmdReserved11001 x s
  | .cmdReserved11010 x => Sys2Proof.Machine.execCmdReserved11010 x s
  | .cmdReserved11011 x => Sys2Proof.Machine.execCmdReserved11011 x s
  | .cmdReserved11100 x => Sys2Proof.Machine.execCmdReserved11100 x s
  | .cmdReserved11101 x => Sys2Proof.Machine.execCmdReserved11101 x s
  | .cmdReserved11110 x => Sys2Proof.Machine.execCmdReserved11110 x s
  | .cmdBrk n m => Sys2Proof.Machine.execCmdBrk n m s
  | .mfsprCmpa rd => Sys2Proof.Machine.execMfsprCmpa rd s
  | .mtsprCmpa rs => Sys2Proof.Machine.execMtsprCmpa rs s
  | .mfsprCmpb rd => Sys2Proof.Machine.execMfsprCmpb rd s
  | .mtsprCmpb rs => Sys2Proof.Machine.execMtsprCmpb rs s
  | .mfsprCmpc rd => Sys2Proof.Machine.execMfsprCmpc rd s
  | .mtsprCmpc rs => Sys2Proof.Machine.execMtsprCmpc rs s
  | .mfsprCmpd rd => Sys2Proof.Machine.execMfsprCmpd rd s
  | .mtsprCmpd rs => Sys2Proof.Machine.execMtsprCmpd rs s
  | .mfsprEcr rd => Sys2Proof.Machine.execMfsprEcr rd s
  | .mtsprEcr rs => Sys2Proof.Machine.execMtsprEcr rs s
  | .mfsprDer rd => Sys2Proof.Machine.execMfsprDer rd s
  | .mtsprDer rs => Sys2Proof.Machine.execMtsprDer rs s
  | .mfsprCounta rd => Sys2Proof.Machine.execMfsprCounta rd s
  | .mtsprCounta rs => Sys2Proof.Machine.execMtsprCounta rs s
  | .mfsprCountb rd => Sys2Proof.Machine.execMfsprCountb rd s
  | .mtsprCountb rs => Sys2Proof.Machine.execMtsprCountb rs s
  | .mfsprCmpe rd => Sys2Proof.Machine.execMfsprCmpe rd s
  | .mtsprCmpe rs => Sys2Proof.Machine.execMtsprCmpe rs s
  | .mfsprCmpf rd => Sys2Proof.Machine.execMfsprCmpf rd s
  | .mtsprCmpf rs => Sys2Proof.Machine.execMtsprCmpf rs s
  | .mfsprCmpg rd => Sys2Proof.Machine.execMfsprCmpg rd s
  | .mtsprCmpg rs => Sys2Proof.Machine.execMtsprCmpg rs s
  | .mfsprCmph rd => Sys2Proof.Machine.execMfsprCmph rd s
  | .mtsprCmph rs => Sys2Proof.Machine.execMtsprCmph rs s
  | .mfsprLctrl1 rd => Sys2Proof.Machine.execMfsprLctrl1 rd s
  | .mtsprLctrl1 rs => Sys2Proof.Machine.execMtsprLctrl1 rs s
  | .mfsprLctrl2 rd => Sys2Proof.Machine.execMfsprLctrl2 rd s
  | .mtsprLctrl2 rs => Sys2Proof.Machine.execMtsprLctrl2 rs s
  | .mfsprIctrl rd => Sys2Proof.Machine.execMfsprIctrl rd s
  | .mtsprIctrl rs => Sys2Proof.Machine.execMtsprIctrl rs s
  | .mfsprBar rd => Sys2Proof.Machine.execMfsprBar rd s
  | .mtsprBar rs => Sys2Proof.Machine.execMtsprBar rs s
  | .mfsprDpdr rd => Sys2Proof.Machine.execMfsprDpdr rd s
  | .mtsprDpdr rs => Sys2Proof.Machine.execMtsprDpdr rs s
  | .rfi => Sys2Proof.Machine.execRfi s
  | .mtmsr rs => Sys2Proof.Machine.execMtmsr rs s
  | .isync => Sys2Proof.Machine.execIsync s
  | .sync => Sys2Proof.Machine.execSync s
  | .stwu rs d ra => Sys2Proof.Machine.execStwu rs d ra s

end Sys2Proof.Machine
end

