-- ==== Sys2Proof/Machine/Save.lean ====
section
/-! DEFINITION. `mfspr` and `mtspr` of SRR0, SRR1, DAR and DSISR (43_cpu_instructions.md R390, 10_state.md R56), which
have no row in the opcode table, and the execution of whatever the CPU executes (log 53). -/

namespace Sys2Proof.Machine

/-- The register exceptions save into. -/
def readSave (n : SaveReg) (s : State) : Word :=
  match n with
  | .srr0 => s.cpu.srr0
  | .srr1 => s.cpu.srr1
  | .dar => s.cpu.dar
  | .dsisr => s.cpu.dsisr

/-- Writes a register exceptions save into, whole. -/
def writeSave (n : SaveReg) (v : Word) (s : State) : State :=
  match n with
  | .srr0 => { s with cpu.srr0 := v }
  | .srr1 => { s with cpu.srr1 := v }
  | .dar => { s with cpu.dar := v }
  | .dsisr => { s with cpu.dsisr := v }

/-- DAR or DSISR holds a free value; SRR0 and SRR1 are left as they are, as R460 says of them (log 33). -/
def drawSave (n : SaveReg) (s : State) : State :=
  match n with
  | .srr0 | .srr1 => s
  | .dar | .dsisr => writeSave n (freeWord 0 s) s

/-- The program exception of a move in user mode. In debug mode its destination then holds a free value
(60_exceptions.md R460): the exemption of R392 and R393, an access not performed, is that of the seventeen registers. -/
def moveException (draw : State → State) (s : State) : State :=
  if s.mode.dm then spend 1 (draw (programException s)) else programException s

/-- `mfspr rD,n` (R390): rD gets the register. In user mode the program exception: PRESUMED, log 53. -/
def execMfsprSave (rd : Reg) (n : SaveReg) (s : State) : Host.Outcome State Fault Refusal :=
  if s.cpu.msr.pr then .next (moveException (fun t => writeGpr rd (freeWord 0 t) t) s)
  else .next (completeSequential (writeGpr rd (readSave n s) s))

/-- `mtspr n,rS` (R390; 60_exceptions.md R470, 70_reset_and_hazards.md R530): the register gets rS, whatever `DME` and
`DM` are, because the protection of R393 is that of the seventeen registers. In user mode the program exception:
PRESUMED, log 53. -/
def execMtsprSave (n : SaveReg) (rs : Reg) (s : State) : Host.Outcome State Fault Refusal :=
  if s.cpu.msr.pr then .next (moveException (drawSave n) s)
  else .next (completeSequential (writeSave n (readGpr rs s) s))

/-- The meaning of what the CPU executes. -/
def execCpu (i : CpuInstr) (s : State) : Host.Outcome State Fault Refusal :=
  match i with
  | .table j => exec j s
  | .mfsprSave rd n => execMfsprSave rd n s
  | .mtsprSave n rs => execMtsprSave n rs s

end Sys2Proof.Machine
end

