-- ==== Sys2Proof/Machine/Watch.lean ====
section
/-! DEFINITION. Watchpoints: the eight comparators and the two AND-OR structures
(41_watchpoints_breakpoints.md R240 to R272). Free values stand where the spec leaves a match open. -/

namespace Sys2Proof.Machine

/-! ### Compare types and instruction watchpoints -/

/-- A compare type that is active: not `0xx`. -/
def compareActive (ct : BitVec 3) : Bool := ct.getMsbD 0

/-- The match of a comparator from its "equal" and "less than" signals (R240, D2). -/
def compareMatch (ct : BitVec 3) (eq lt : Bool) : Bool :=
  match ct.toNat with
  | 4 => eq
  | 5 => lt
  | 6 => !eq && !lt
  | 7 => !eq
  | _ => false

/-- An instruction comparator: the word address against the 30-bit value, unsigned (R240, D1). -/
def instrCompare (ct : BitVec 3) (c a : BitVec 30) : Bool := compareMatch ct (a == c) (a.ult c)

/-- Amatch. -/
def matchA (a : BitVec 30) (d : Dev) : Bool := instrCompare (ictrlCta d.ictrl) d.cmpa a
/-- Bmatch. -/
def matchB (a : BitVec 30) (d : Dev) : Bool := instrCompare (ictrlCtb d.ictrl) d.cmpb a
/-- Cmatch. -/
def matchC (a : BitVec 30) (d : Dev) : Bool := instrCompare (ictrlCtc d.ictrl) d.cmpc a
/-- Dmatch. -/
def matchD (a : BitVec 30) (d : Dev) : Bool := instrCompare (ictrlCtd d.ictrl) d.cmpd a

/-- An instruction watchpoint from its programming: `0x` none, `10` the single match, `11` the combined one
(R241, Table 21-6). -/
def iwpSelect (field : BitVec 2) (single combined : Bool) : Bool :=
  match field.toNat with
  | 2 => single
  | 3 => combined
  | _ => false

/-- The instruction watchpoints of the fetch at a word address (R241). -/
def flightOfFetch (a : BitVec 30) (d : Dev) : Flight where
  iwp0 := iwpSelect (ictrlIwp0 d.ictrl) (matchA a d) (matchA a d && matchB a d)
  iwp1 := iwpSelect (ictrlIwp1 d.ictrl) (matchB a d) (matchA a d || matchB a d)
  iwp2 := iwpSelect (ictrlIwp2 d.ictrl) (matchC a d) (matchC a d && matchD a d)
  iwp3 := iwpSelect (ictrlIwp3 d.ictrl) (matchD a d) (matchC a d || matchD a d)
  cycles := []
  excepted := false

/-- `ibrk_direct` (R243). -/
def instrBreakDirect (s : State) : Bool :=
  (s.cpu.flight.iwp0 && instrTrapEnable s 0) || (s.cpu.flight.iwp1 && instrTrapEnable s 1) ||
  (s.cpu.flight.iwp2 && instrTrapEnable s 2) || (s.cpu.flight.iwp3 && instrTrapEnable s 3)

/-! ### Load/store comparators -/

/-- The address bits a cycle of a size compares (R264, 20_memory.md R108). -/
def addressMask (size : Nat) : Word :=
  if size = 4 then 0xFFFFFFFC#32 else if size = 2 then 0xFFFFFFFE#32 else 0xFFFFFFFF#32

/-- The address is not a multiple of the size (20_memory.md R109). -/
def unalignedCycle (c : BusCycle) : Bool := c.addr &&& ~~~addressMask c.size != 0#32

/-- CRWE or CRWF: the cycle's direction is selected (R264). -/
def directionSelected (crw : BitVec 2) (write : Bool) : Bool :=
  match crw.toNat with
  | 2 => !write
  | 3 => write
  | _ => true

/-- Ematch or Fmatch (R264). On an unaligned cycle an active comparator's match is `free` (D19, log 26). -/
def addressCompare (ct : BitVec 3) (crw : BitVec 2) (v : Word) (c : BusCycle) (free : Bool) : Bool :=
  if unalignedCycle c then compareActive ct && free
  else
    directionSelected crw c.write &&
      compareMatch ct (c.addr &&& addressMask c.size == v &&& addressMask c.size)
        ((c.addr &&& addressMask c.size).ult (v &&& addressMask c.size))

/-- The lanes of the compare unit that lane `j` belongs to, by compare size (R266): word `01`, half-word `10`,
byte `11`. The reserved size `00` has none. -/
def unitLanes (size : BitVec 2) (j : Nat) : List Nat :=
  match size.toNat with
  | 1 => [0, 1, 2, 3]
  | 2 => if j < 2 then [0, 1] else [2, 3]
  | 3 => [j]
  | _ => []

/-- The number a word holds in a unit's lanes, the lower lane more significant (R266). -/
def unitValue (w : Word) (lanes : List Nat) : Nat := lanes.foldl (fun n k => n * 256 + (lane w k).toNat) 0

/-- `ltU` of R266: the unit's bus value is less than the comparator's, signed or unsigned. -/
def unitLess (signed : Bool) (lanes : List Nat) (b c : Nat) : Bool :=
  if signed then
    decide (BitVec.toInt (BitVec.ofNat (8 * lanes.length) b) < BitVec.toInt (BitVec.ofNat (8 * lanes.length) c))
  else decide (b < c)

/-- Lane `k` carries information of the cycle (R268). -/
def laneValid (c : BusCycle) (k : Nat) : Bool :=
  decide ((c.addr.extractLsb' 0 2).toNat ≤ k) && decide (k < (c.addr.extractLsb' 0 2).toNat + c.size)

/-- The programming of a data comparator (10_state.md R28). -/
structure DataCompare where
  ct : BitVec 3
  size : BitVec 2
  signed : Bool
  mask : BitVec 4
  value : Word
deriving DecidableEq, Repr

/-- Comparator G. -/
def compareG (d : Dev) : DataCompare :=
  ⟨lctrl1Ctg d.lctrl1, lctrl1Csg d.lctrl1, lctrl1Susg d.lctrl1, lctrl1Cgbmsk d.lctrl1, d.cmpg⟩

/-- Comparator H. -/
def compareH (d : Dev) : DataCompare :=
  ⟨lctrl1Cth d.lctrl1, lctrl1Csh d.lctrl1, lctrl1Sush d.lctrl1, lctrl1Chbmsk d.lctrl1, d.cmph⟩

/-- A unit's compare on a cycle that carries all of its lanes: all bytes masked, no match; some masked, free (R267,
D27); none masked, the compare of R266. -/
def unitMatch (p : DataCompare) (c : BusCycle) (free : Nat → Bool) (lanes : List Nat) (j : Nat) : Bool :=
  if lanes.all (fun k => p.mask.getMsbD k) then false
  else if lanes.any (fun k => p.mask.getMsbD k) then free (lanes.headD j)
  else
    compareMatch p.ct (unitValue c.data lanes == unitValue p.value lanes)
      (unitLess p.signed lanes (unitValue c.data lanes) (unitValue p.value lanes))

/-- Gmatch[j] or Hmatch[j] (R266 to R268). `free k` is the free value of lane k. A comparator that is not active
never matches. A cycle smaller than the compare size never matches, aligned or not (R268, D19); an unaligned cycle
(D19) and the reserved size (U6) are free; then the lane validation of R268 comes before the mask, so that a partly
masked unit (D27) is free only where the cycle carries all of its lanes. -/
def dataMatch (p : DataCompare) (c : BusCycle) (free : Nat → Bool) (j : Nat) : Bool :=
  compareActive p.ct && decide ((unitLanes p.size j).length ≤ c.size) &&
    (if unalignedCycle c || p.size == 0#2 then free j
     else (unitLanes p.size j).all (laneValid c) && unitMatch p c free (unitLanes p.size j) j)

/-- Ematch of a bus cycle (R264), with the free value of an unaligned one. -/
def matchE (d : Dev) (c : BusCycle) (free : Bool) : Bool :=
  addressCompare (lctrl1Cte d.lctrl1) (lctrl1Crwe d.lctrl1) d.cmpe c free

/-- Fmatch of a bus cycle (R264). -/
def matchF (d : Dev) (c : BusCycle) (free : Bool) : Bool :=
  addressCompare (lctrl1Ctf d.lctrl1) (lctrl1Crwf d.lctrl1) d.cmpf c free

/-- The four lanes. -/
def allLanes : List Nat := [0, 1, 2, 3]

/-- The selected one of two events, their conjunction or their disjunction (LWxLA, R270). -/
def eventSelect (sel : BitVec 2) (x y : Bool) : Bool :=
  match sel.toNat with
  | 0 => x
  | 1 => y
  | 2 => x && y
  | _ => x || y

/-- The load/store data event (Table 21-7, R269): the combinations are taken lane by lane. -/
def dataEvent (sel : BitVec 2) (g h : Nat → Bool) : Bool := allLanes.any (fun j => eventSelect sel (g j) (h j))

/-- The instruction watchpoint LWxIA selects (R270). -/
def iwpOf (f : Flight) (sel : BitVec 2) : Bool :=
  match sel.toNat with
  | 0 => f.iwp0
  | 1 => f.iwp1
  | 2 => f.iwp2
  | _ => f.iwp3

/-- The number of free values set aside for one bus cycle: E, F, the lanes of G, the lanes of H. -/
def drawsPerCycle : Nat := 10

/-- `LWPk(i, c)` (R270): the free values of cycle `c` begin at `n`. -/
def lwpCycle (p : LwpFields) (d : Dev) (f : Flight) (n : Nat) (c : BusCycle) : Bool :=
  p.en && (!p.iadc || iwpOf f p.ia) &&
  (!p.ladc || eventSelect p.la (matchE d c (Config.freeBool n)) (matchF d c (Config.freeBool (n + 1)))) &&
  (!p.lddc || dataEvent p.ld
    (dataMatch (compareG d) c (fun k => Config.freeBool (n + 2 + k)))
    (dataMatch (compareH d) c (fun k => Config.freeBool (n + 6 + k))))

/-- One bus cycle with the load/store watchpoints it detected. -/
structure WatchedCycle where
  addr : Word
  lwp0 : Bool
  lwp1 : Bool
deriving DecidableEq, Repr

/-- The load/store watchpoints of each bus cycle of an instruction, in bus order (R270). -/
def watchCycles (d : Dev) (f : Flight) : Nat → List BusCycle → List WatchedCycle
  | _, [] => []
  | n, c :: cs =>
    ⟨c.addr, lwpCycle (lctrl2Lw0 d.lctrl2) d f n c, lwpCycle (lctrl2Lw1 d.lctrl2) d f n c⟩ ::
      watchCycles d f (n + drawsPerCycle) cs

/-- The address of the first cycle that generated the breakpoint (R276, D34). -/
def breakAddress (brk0 brk1 : Bool) : List WatchedCycle → Option Word
  | [] => none
  | c :: cs => if (c.lwp0 && brk0) || (c.lwp1 && brk1) then some c.addr else breakAddress brk0 brk1 cs

end Sys2Proof.Machine
end

