-- ==== Sys2Proof/Machine/Run.lean ====
section
/-! DEFINITION. One step of the machine: the CPU's step outside debug mode (41_watchpoints_breakpoints.md R291) and
in debug mode (60_exceptions.md R460, R461), a transmission of the tool, and a change of an input. -/

namespace Sys2Proof.Machine

/-! ### Counters (41_watchpoints_breakpoints.md R277 to R281) -/

/-- The counter counts a watchpoint of the instruction: its instruction watchpoint with CNTC = 01, its load/store
watchpoint with CNTC = 10 (R277). Nothing is counted where internal breakpoints are not recognised (R251). -/
def counts (recog : Bool) (c : Counter) (iwp lwp : Bool) : Bool :=
  recog && ((c.cntc == 0b01#2 && iwp) || (c.cntc == 0b10#2 && lwp))

/-- A counted event at 1 expires the counter (R278, R279). -/
def counterExpires (counted : Bool) (c : Counter) : Bool := counted && c.cntv == 1#16

/-- A counted event makes the counter's breakpoint: it expires at 1; at 0 it is open (R278, R281, D8, log 24). -/
def counterBreak (counted : Bool) (c : Counter) (free : Bool) : Bool :=
  counterExpires counted c || (counted && c.cntv == 0#16 && free)

/-- The counter after its instruction retires: one less, free where it was 0 (R281) or where the instruction itself
altered it (R280, U3). -/
def countRetired (counted altered : Bool) (free : BitVec 16) (c : Counter) : Counter :=
  if counted then { c with cntv := if altered || c.cntv == 0#16 then free else c.cntv - 1#16 } else c

/-- The counter after an instruction breakpoint: unchanged (R244, R279, R291), but free where nothing else stopped the
instruction and the break is the open one of its own event at 0 (R281, D8, log 24). -/
def countBroken (certain counted own : Bool) (free : BitVec 16) (c : Counter) : Counter :=
  if !certain && counted && c.cntv == 0#16 && own then { c with cntv := free } else c

/-- COUNTA counts the instruction watchpoint of the instruction in flight. -/
def instrCountA (s : State) : Bool := counts (recognised s) s.dev.counta s.cpu.flight.iwp0 false

/-- COUNTB counts the instruction watchpoint of the instruction in flight. -/
def instrCountB (s : State) : Bool := counts (recognised s) s.dev.countb s.cpu.flight.iwp1 false

/-- The instruction is an `mtspr COUNTA`. -/
def altersCounta : CpuInstr → Bool
  | .table (.mtsprCounta _) => true
  | _ => false

/-- The instruction is an `mtspr COUNTB`. -/
def altersCountb : CpuInstr → Bool
  | .table (.mtsprCountb _) => true
  | _ => false

/-! ### The instruction breakpoint (R243, R244, R261, R262, R286)

`s` is the state after the fetch. The CPU's step sets eight free values aside for it: 0 and 1 the breakpoints of
the counters at 0, 2 and 3 their values, 4 and 5 those of U1, 6 the pins (N24), 7 an altered counter. -/

/-- How many free values the break stage sets aside. -/
def breakDraws : Nat := 8

/-- A recognised direct instruction breakpoint. -/
def directBreak (s : State) : Bool := recognised s && instrBreakDirect s

/-- A counter's instruction breakpoint (R279). -/
def counterInstrBreak (s : State) : Bool :=
  counterBreak (instrCountA s) s.dev.counta (freeBool 0 s) || counterBreak (instrCountB s) s.dev.countb (freeBool 1 s)

/-- The instruction is stopped whatever the open values are: by a direct breakpoint that IFM does not ignore, or by a
counter that expires (R291). -/
def certainBreak (s : State) : Bool :=
  (directBreak s && !ictrlIfm s.dev.ictrl) || counterExpires (instrCountA s) s.dev.counta ||
    counterExpires (instrCountB s) s.dev.countb

/-- An `mtspr ICTRL` with IFM set, or that sets it. -/
def writesIfm (i : Option CpuInstr) (s : State) : Bool :=
  match i with
  | some (.table (.mtsprIctrl rs)) => ictrlIfm s.dev.ictrl || (readGpr rs s).getMsbD 28
  | _ => false

/-- A breakpoint is set on an `mtspr ICTRL` with IFM: "the result will be unpredictable" (R286, U1, log 25). -/
def unpredictableBreak (i : Option CpuInstr) (s : State) : Bool :=
  (directBreak s || counterInstrBreak s) && writesIfm i s

/-- The instruction breakpoint is taken. IFM ignores a direct one (R261), never a counter's (R263). -/
def instrBreakTaken (i : Option CpuInstr) (s : State) : Bool :=
  if unpredictableBreak i s then freeBool 4 s
  else (directBreak s && !ictrlIfm s.dev.ictrl) || counterInstrBreak s

/-- After U1 the value of IFM is free. -/
def settleIfm (i : Option CpuInstr) (s t : State) : State :=
  if unpredictableBreak i s then { t with dev.ictrl := setIfm (freeBool 5 s) t.dev.ictrl } else t

/-- The instruction is executed: a match that was ignored clears IFM (R262). -/
def passBreak (s : State) : State :=
  spend breakDraws (if directBreak s then { s with dev.ictrl := setIfm false s.dev.ictrl } else s)

/-- The instruction is not executed, and no counter change survives (R244). Whether its watchpoints reach the pins is
open (N24, log 28). -/
def takeInstrBreak (i : Option CpuInstr) (s : State) : State :=
  raise .instrBreak s.cpu.pc (settleIfm i s (spend breakDraws
    { s with
      dev.counta := countBroken (certainBreak s) (instrCountA s) (freeBool 0 s) (freeHalf 2 s) s.dev.counta
      dev.countb := countBroken (certainBreak s) (instrCountB s) (freeBool 1 s) (freeHalf 3 s) s.dev.countb
      syncedA := s.syncedA && !instrCountA s
      syncedB := s.syncedB && !instrCountB s
      trace.pins :=
        ⟨s.cpu.flight.iwp0 && freeBool 6 s, s.cpu.flight.iwp1 && freeBool 6 s, s.cpu.flight.iwp2 && freeBool 6 s,
          false, false⟩
      ext.cpuExc := none }))

/-! ### Retirement (R242, R272, R273, R278, R291)

`s` is the state after the fetch, whose programming and MSR.RI decide (log 45); `t` is the state after the
instruction. -/

/-- The load/store watchpoints of the instruction's bus cycles. -/
def watched (s t : State) : List WatchedCycle := watchCycles s.dev t.cpu.flight t.draws t.cpu.flight.cycles

/-- LWP0 of the instruction (R233, R270). -/
def lwp0Of (cs : List WatchedCycle) : Bool := cs.any (fun c => c.lwp0)

/-- LWP1 of the instruction. -/
def lwp1Of (cs : List WatchedCycle) : Bool := cs.any (fun c => c.lwp1)

/-- COUNTA counts the instruction. -/
def countsA (s : State) (cs : List WatchedCycle) : Bool :=
  counts (recognised s) s.dev.counta s.cpu.flight.iwp0 (lwp0Of cs)

/-- COUNTB counts the instruction. -/
def countsB (s : State) (cs : List WatchedCycle) : Bool :=
  counts (recognised s) s.dev.countb s.cpu.flight.iwp1 (lwp1Of cs)

/-- The free values of the retirement after those of its bus cycles. -/
def retireBase (cs : List WatchedCycle) : Nat := drawsPerCycle * cs.length

/-- LWP0 generates the load/store breakpoint: by its trap enable or by COUNTA (R272, R279). -/
def lwp0Breaks (s t : State) (cs : List WatchedCycle) : Bool :=
  loadStoreTrapEnable s 0 ||
    counterBreak (s.dev.counta.cntc == 0b10#2 && lwp0Of cs) s.dev.counta (freeBool (retireBase cs) t)

/-- LWP1 generates the load/store breakpoint: by its trap enable or by COUNTB. -/
def lwp1Breaks (s t : State) (cs : List WatchedCycle) : Bool :=
  loadStoreTrapEnable s 1 ||
    counterBreak (s.dev.countb.cntc == 0b10#2 && lwp1Of cs) s.dev.countb (freeBool (retireBase cs + 1) t)

/-- The address the load/store breakpoint latches, if there is one (R273, R276). -/
def loadStoreBreak (s t : State) (cs : List WatchedCycle) : Option Word :=
  if recognised s then breakAddress (lwp0Breaks s t cs) (lwp1Breaks s t cs) cs else none

/-- Pins and counters of an instruction that completed. Each pin pulses once for every retired instruction that carries
its watchpoint, the most R234 allows; where the same event on several instructions "in some cases will be reported only
once" the spec leaves open: DESIGN CHOICE, unsafe, log 28. -/
def reportRetired (i : CpuInstr) (s t : State) (cs : List WatchedCycle) : State :=
  spend (retireBase cs + 5)
    { t with
      trace.pins := ⟨s.cpu.flight.iwp0, s.cpu.flight.iwp1, s.cpu.flight.iwp2, lwp0Of cs, lwp1Of cs⟩
      dev.counta := countRetired (countsA s cs) (altersCounta i) (freeHalf (retireBase cs + 2) t) t.dev.counta
      dev.countb := countRetired (countsB s cs) (altersCountb i) (freeHalf (retireBase cs + 3) t) t.dev.countb
      syncedA := t.syncedA && !countsA s cs
      syncedB := t.syncedB && !countsB s cs }

/-- The trace event follows the instruction (R441, R444). Never `rfi` (PRESUMED: log 29). -/
def traced (free : Bool) (i : CpuInstr) (s : State) : Bool := traceMode free s && i != .table .rfi

/-- What follows a completed instruction: the load/store breakpoint, the trace event, or both at once. They are taken in
the instruction's own step, so before an asynchronous request that the instruction itself makes recognisable at the same
boundary (`mtmsr` that sets RI or EE with MSR.SE = 1), which the next step takes if it is still recognised then; D11
leaves the order (`EVENT_PRIORITY`) open: DESIGN CHOICE, unsafe, log 15. -/
def raiseAfter (brk : Option Word) (trace : Bool) (t : State) : State :=
  match brk, trace with
  | none, false => t
  | none, true => raise .trace t.cpu.pc t
  | some a, false => raise .loadStoreBreak t.cpu.pc { t with dev.bar := a }
  | some a, true => raiseAll .loadStoreBreak [.trace] t.cpu.pc { t with dev.bar := a }

/-- The instruction retires. One that took an exception did not complete: nothing is reported or counted (R485). -/
def retire (i : CpuInstr) (s t : State) : State :=
  if t.cpu.flight.excepted then t
  else
    raiseAfter (loadStoreBreak s t (watched s t)) (traced (freeBool (retireBase (watched s t) + 4) t) i s)
      (reportRetired i s t (watched s t))

/-- The end of a CPU step that began in `s`: nothing is in flight, the show cycle programming in force at the
fetch applies to the next fetch too (40_program_trace.md R205), and a report of VSYNC that was held back is made if
every marked address has been shown (R198). -/
def finish (s t : State) : State :=
  reportHeldVsync
    { t with
      cpu.flight := Flight.idle
      trace.isct := ictrlIsct s.dev.ictrl }

/-! ### The CPU outside debug mode -/

/-- The fetch of the instruction at `pc`: its show cycle and its instruction watchpoints (R241). -/
def fetched (s : State) : State :=
  { showFetch s with
    cpu.flight := flightOfFetch (s.cpu.pc.extractLsb' 2 30) s.dev
    trace.pins := WatchPins.quiet }

/-- The end of the step of an instruction that was executed. -/
def afterExec (i : CpuInstr) (s : State) : Host.Outcome State Fault Refusal → Host.Outcome State Fault Refusal
  | .next t => .next (finish s (retire i s (settleIfm (some i) s t)))
  | .fault r => .fault r
  | .refused r => .refused r

/-- The instruction fetched in `s`: its breakpoint, which pre-empts everything the instruction would have raised (R485),
an exception of the CPU in its place, or its execution. -/
def runFetched (i : Option CpuInstr) (s : State) : Host.Outcome State Fault Refusal :=
  if instrBreakTaken i s then .next (finish s (takeInstrBreak i s))
  else
    match s.ext.cpuExc with
    | some e =>
      .next (finish s (settleIfm i s (raiseCpuExc e { passBreak s with ext.cpuExc := none })))
    | none =>
      match i with
      | some j => afterExec j s (execCpu j (passBreak s))
      | none => .refused .outsideSection21

/-- The latched asynchronous event that is taken waits no longer; the levels stay. -/
def acceptAsync (e : Event) (s : State) : State :=
  { s with
    ext.nmi := s.ext.nmi && e != .nmi
    ext.machineCheck := s.ext.machineCheck && e != .machineCheck && e != .checkStop }

/-- An asynchronous event is taken between two instructions (60_exceptions.md R441, R446, R447). -/
def takeAsync (e : Event) (s : State) : State :=
  let t := raiseAsync e { acceptAsync e s with trace.pins := WatchPins.quiet }
  { t with
    cpu.flight := Flight.idle
    nmbrkTaken := t.nmbrkTaken || (e == .devPortInt && !t.mode.dm) }

/-- The CPU's step outside debug mode. NMBRK left asserted after it went to a regular handler is refused (D29). -/
def runStep (s : State) : Host.Outcome State Fault Refusal :=
  if s.port.tecr.nmbrk && s.nmbrkTaken then .refused .nmbrkHeld
  else
    match pendingEvents s with
    | e :: es => .next (takeAsync (pickEvent e es) s)
    | [] =>
      if s.trace.isct == 0b100#3 then .refused .illegalShowCycles
      else
        match memReadWord s.cpu.pc s.mem, s.ext.cpuExc with
        | some w, _ => runFetched (decodeCpu w) (fetched s)
        | none, some _ => runFetched none (fetched s)
        | none, none => .fault .fetchUnwritten

/-! ### The CPU in debug mode -/

/-- The bytes `n` to 0 from `a` on hold free values, counted from the draw `k` on. -/
def storeFree (k : Nat) (a : Word) (s : State) : Nat → List Host.Cell
  | 0 => s.mem
  | n + 1 => memWrite (byteAddr a n) ((freeWord (k + n) s).extractLsb' 0 8) (storeFree k a s n)

/-- The destination of a word of the CPU's instruction set that section 21 does not give: it may be any general register
(or several), DAR, DSISR, or up to 128 bytes of memory (a store of all 32 registers) from a free address on (log 33). -/
def drawUnknown (s : State) : State :=
  spend 164
    { s with
      cpu.gpr := Vector.ofFn fun r => freeWord r.val s
      cpu.dar := freeWord 32 s
      cpu.dsisr := freeWord 33 s
      mem := storeFree 36 (freeWord 34 s) s ((freeWord 35 s).toNat % 129) }

/-- Where the result of an instruction goes, as far as R460 lets it change: MSR, SRR0 and SRR1 do not. -/
inductive Destination where
  | nothing
  | gpr (rd : Reg)
  | spr (n : Spr)
  | save (n : SaveReg)
  | store (ra : Reg) (d : Int)
  /-- a word of the CPU's instruction set that section 21 does not give -/
  | unknown
deriving DecidableEq, Repr

/-- The destination of a row of the table. A side effect of the instruction is no destination: whether an `mfspr ECR` that
excepts in debug mode still clears the ECR (10_state.md R35), an `mfspr DPDR` still waits for the tool or a `sync` still
synchronizes the counters, the spec leaves open (R460, 91_not_in_source.md N34). The model suppresses these side effects:
DESIGN CHOICE, unsafe, log 33. -/
def tableDestination : Instr → Destination
  | .mfsprCmpa rd | .mfsprCmpb rd | .mfsprCmpc rd | .mfsprCmpd rd | .mfsprEcr rd | .mfsprDer rd
  | .mfsprCounta rd | .mfsprCountb rd | .mfsprCmpe rd | .mfsprCmpf rd | .mfsprCmpg rd | .mfsprCmph rd
  | .mfsprLctrl1 rd | .mfsprLctrl2 rd | .mfsprIctrl rd | .mfsprBar rd | .mfsprDpdr rd => .gpr rd
  | .mtsprCmpa _ => .spr .cmpa
  | .mtsprCmpb _ => .spr .cmpb
  | .mtsprCmpc _ => .spr .cmpc
  | .mtsprCmpd _ => .spr .cmpd
  | .mtsprDer _ => .spr .der
  | .mtsprCounta _ => .spr .counta
  | .mtsprCountb _ => .spr .countb
  | .mtsprCmpe _ => .spr .cmpe
  | .mtsprCmpf _ => .spr .cmpf
  | .mtsprCmpg _ => .spr .cmpg
  | .mtsprCmph _ => .spr .cmph
  | .mtsprLctrl1 _ => .spr .lctrl1
  | .mtsprLctrl2 _ => .spr .lctrl2
  | .mtsprIctrl _ => .spr .ictrl
  | .mtsprBar _ => .spr .bar
  | .mtsprDpdr _ => .spr .dpdr
  | .stwu _ d ra => .store ra d
  | _ => .nothing

/-- The destination of an instruction; of a word the spec does not describe it is unknown. -/
def destinationOf : Option CpuInstr → Destination
  | none => .unknown
  | some (.table i) => tableDestination i
  | some (.mfsprSave rd _) => .gpr rd
  | some (.mtsprSave n _) => .save n

/-- A special register holds what the write of a free value would store; the ECR ignores writes (R400). DPDR may have
become valid data of the port. -/
def drawSpr (n : Spr) (s : State) : State :=
  match n with
  | .cmpa => { s with dev.cmpa := addressBits (freeWord 0 s) }
  | .cmpb => { s with dev.cmpb := addressBits (freeWord 0 s) }
  | .cmpc => { s with dev.cmpc := addressBits (freeWord 0 s) }
  | .cmpd => { s with dev.cmpd := addressBits (freeWord 0 s) }
  | .ecr => s
  | .der => { s with dev.der := freeWord 0 s &&& causeMask }
  | .counta => { s with dev.counta := counterOfWord (freeWord 0 s), syncedA := false }
  | .countb => { s with dev.countb := counterOfWord (freeWord 0 s), syncedB := false }
  | .cmpe => { s with dev.cmpe := freeWord 0 s }
  | .cmpf => { s with dev.cmpf := freeWord 0 s }
  | .cmpg => { s with dev.cmpg := freeWord 0 s }
  | .cmph => { s with dev.cmph := freeWord 0 s }
  | .lctrl1 => { s with dev.lctrl1 := freeWord 0 s &&& lctrl1Writable }
  | .lctrl2 => { s with dev.lctrl2 := freeWord 0 s &&& lctrl2Writable }
  | .ictrl => { s with dev.ictrl := freeWord 0 s &&& ictrlWritable }
  | .bar => { s with dev.bar := freeWord 0 s }
  | .dpdr =>
    { s with
      port.shift := s.port.shift.extractLsb' 32 3 ++ freeWord 0 s
      port.pValid := s.port.pValid || freeBool 1 s }

/-- A destination holds free values. `s0` is the state in which the instruction found its operands. -/
def drawAt (d : Destination) (s0 s : State) : State :=
  match d with
  | .nothing => s
  | .gpr rd => spend 1 (writeGpr rd (freeWord 0 s) s)
  | .spr n => spend 2 (drawSpr n s)
  | .save n => spend 1 (drawSave n s)
  | .store ra d =>
    spend 2
      { writeGpr ra (freeWord 0 s) s with
        mem := memWriteWord (effectiveAddress ra d s0) (freeWord 1 s) s.mem }
  | .unknown => drawUnknown s

/-- The destination of an instruction that excepts in debug mode holds free values; it has no side effect, so an
`mfspr ECR` does not clear the ECR (R460, N34, log 33). -/
def drawDestination (i : Option CpuInstr) (s0 s : State) : State := drawAt (destinationOf i) s0 s

/-- An exception of the CPU at an instruction in debug mode: recorded, execution goes on (R460, log 33). -/
def exceptInDebug (e : CpuExc) (i : Option CpuInstr) (s : State) : State := drawDestination i s (raiseCpuExc e s)

/-- The trace event of an instruction completed in debug mode (R461, log 29), which is then the excepting instruction
of R460: its destination is drawn, and its side effects, such as the clearing by `mfspr ECR`, stand (DESIGN CHOICE,
unsafe, log 33). An `mfspr rD,DPDR` that waits for its data has not completed: its event comes with the data word
(`completeRead`). -/
def traceInDebug (i : CpuInstr) (s t : State) : State :=
  if t.mode.dm && t.cpu.wait == CpuWait.none && !t.cpu.flight.excepted && traced (freeBool 0 t) i s then
    drawDestination (some i) s (spend 1 (recordInDebug .trace t))
  else spend 1 t

/-- The end of a debug mode step: no watchpoint is reported (41_watchpoints_breakpoints.md R285), and the CPU
fetches again (42_development_port.md R350). -/
def finishDebug (s t : State) : State :=
  fetchFromPort { finish s t with trace.pins := WatchPins.quiet }

/-- The end of the step of an instruction that was executed in debug mode. -/
def afterExecDebug (i : CpuInstr) (s : State) : Host.Outcome State Fault Refusal → Host.Outcome State Fault Refusal
  | .next t => .next (finishDebug s (traceInDebug i s t))
  | .fault r => .fault r
  | .refused r => .refused r

/-- The word the port handed over is executed (R350, R421). -/
def runDelivered (w : Word) (s : State) : Host.Outcome State Fault Refusal :=
  match s.ext.cpuExc with
  | some e => .next (finishDebug s (exceptInDebug e (decodeCpu w) { s with ext.cpuExc := none, cpu.dpir := none }))
  | none =>
    match decodeCpu w with
    | some i => afterExecDebug i s (execCpu i { s with cpu.dpir := none })
    | none => .refused .outsideSection21

/-- The CPU's step in debug mode. Its fetches from the port are never shown (DESIGN CHOICE, log 30). -/
def debugStep (s : State) : Host.Outcome State Fault Refusal :=
  if s.ext.nmi then .next { recordInDebug .nmi s with ext.nmi := false }
  else if s.ext.machineCheck then .next { recordMachineCheck s with ext.machineCheck := false }
  else
    match s.cpu.dpir with
    | some w => runDelivered w s
    | none => .next (fetchFromPort s)

/-! ### The machine -/

/-- The CPU waits for the tool in debug mode (D16). -/
def waitsForTool (s : State) : Bool := s.mode.dm && s.cpu.wait != CpuWait.none

/-- The CPU's step. -/
def cpuStep (s : State) : Host.Outcome State Fault Refusal :=
  if s.cpu.checkStop then .fault .checkStopped
  else if waitsForTool s then .fault .waitingForTool
  else if s.mode.dm then debugStep s
  else runStep s

/-- The bits of a frame as a code. -/
def frameCode : Frame → Code
  | .short b => .dp10 b
  | .long b => .dp35 b

/-- The port takes a transmission. Bits without a start bit are the idle line (30_encoding.md R150). -/
def frameStep (f : Frame) (s : State) : Host.Outcome State Fault Refusal :=
  match decode (frameCode f) with
  | .ok i => exec i s
  | .rejected .noStartBit => .next s
  | .rejected .wrongLength => .refused .notAFrame
  | .rejected .unknownWord => .refused .notAFrame

/-- A token that lets the CPU step: nothing happens while it cannot (log 41). -/
def runToken (s : State) : Host.Outcome State Fault Refusal :=
  if s.cpu.checkStop || waitsForTool s then .next s else cpuStep s

/-- IRQ0_B is asserted: recorded at once in debug mode (R460), else recognised at the next boundary (R445). A frame not yet
started then reports it, also where ready was asserted before: DESIGN CHOICE, unsafe, log 54. -/
def assertNmi (s : State) : State :=
  if s.mode.dm then recordInDebug .nmi s else { s with ext.nmi := true }

/-- An asynchronous machine check condition arises: recorded at once in debug mode (R455, R460), else recognised at the
next boundary (log 49). The status of the next frame is as with `assertNmi` (log 54). -/
def assertMachineCheck (s : State) : State :=
  if s.mode.dm then recordMachineCheck s else { s with ext.machineCheck := true }

/-- One step: the next input, or the CPU. A frame waits until ready is asserted (42_development_port.md R326). -/
def stepMachine (s : State) : Host.Outcome State Fault Refusal :=
  match s.ext.inputs with
  | [] => cpuStep s
  | .frame f :: rest => if portReady s then frameStep f { s with ext.inputs := rest } else cpuStep s
  | .run :: rest => runToken { s with ext.inputs := rest }
  | .nmi :: rest => .next (assertNmi { s with ext.inputs := rest })
  | .machineCheck :: rest => .next (assertMachineCheck { s with ext.inputs := rest })
  | .extInt on :: rest => .next { s with ext.inputs := rest, ext.extInt := on }
  | .decr on :: rest => .next { s with ext.inputs := rest, ext.decr := on }
  | .moduleBrk on :: rest => .next { s with ext.inputs := rest, ext.moduleBrk := on }
  | .cpuException e :: rest => .next { s with ext.inputs := rest, ext.cpuExc := some e }
  | .pins p :: rest => .next { s with ext.inputs := rest, ext.pins := p }
  | .reset k :: rest => .next (resetMachine k { s with ext.inputs := rest })

/-! ### Placing an instruction where the next step takes it (log 9) -/

/-- The tool offers a frame next, and the port is ready for it. -/
def placeFrame (f : Frame) (s : State) : State :=
  let t := { s with ext.inputs := .frame f :: s.ext.inputs }
  if portReady s then t else { t with cpu.wait := .instr, cpu.dpir := none }

/-- A CPU word where the CPU takes its next instruction: at `pc`, or in debug mode from the port. -/
def placeWord (w : Word) (s : State) : State :=
  let t := { s with ext.inputs := if s.ext.inputs.isEmpty then [] else .run :: s.ext.inputs }
  if s.mode.dm then { t with cpu.dpir := some w, cpu.wait := .none }
  else { t with mem := memWriteWord s.cpu.pc w s.mem }

/-- The instruction with the table's bits `w`, where the next step takes it. -/
def placeTableWord (nbits w : Nat) (s : State) : State :=
  match tableCode nbits w with
  | none => s
  | some (.word v) => placeWord v s
  | some (.dp10 b) => placeFrame (.short b) s
  | some (.dp35 b) => placeFrame (.long b) s

end Sys2Proof.Machine
end

