-- ==== Sys2Proof/Machine/Step.lean ====
section
/-! DEFINITION. The step function and the placing of one instruction. -/

namespace Sys2Proof.Machine

/-- One step of the machine (70_reset_and_hazards.md R556). -/
def step (s : State) : Host.Outcome State Fault Refusal := stepMachine s

/-- `s` with the instruction of the opcode table's bits `w` where the next step takes it (log 9). -/
def State.withFetchWord (s : State) (nbits w : Nat) : State := placeTableWord nbits w s

end Sys2Proof.Machine
end

