-- ==== Sys2Proof/Machine/Trace.lean ====
section
/-! DEFINITION. What the external trace hardware and the reconstruction software do with the pins
(40_program_trace.md R187, R188, R193, R197, R200 to R202). Nothing here changes the machine. -/

namespace Sys2Proof.Machine

/-- What the external decoder reports for one clock. -/
inductive VfReport where
  /-- an instruction type (Table 21-1) -/
  | instrType (code : BitVec 3)
  /-- so many instructions flushed from the instruction queue (Table 21-2) -/
  | flushed (n : Fin 6)
deriving DecidableEq, Repr

/-- What VFLS[0:1] tells the external hardware (Table 21-3). -/
inductive VflsReport where
  /-- so many instructions flushed from the history buffer -/
  | flushed (n : Fin 3)
  /-- freeze or debug mode: "Program trace external hardware should ignore this setting" (R193) -/
  | freeze
deriving DecidableEq, Repr

/-- VFLS[0:1] as the external hardware reads it in any clock (30_encoding.md R155). -/
def vflsDecode (code : BitVec 2) : VflsReport :=
  if h : code.toNat < 3 then .flushed ⟨code.toNat, h⟩ else .freeze

/-- One clock of the external VF decoder (R187): the report and the next state. `none` is the reserved code 110
in the flush position (U5). -/
def vfDecode (st : VfState) (code : BitVec 3) : Option (VfReport × VfState) :=
  match st with
  | .type => some (.instrType code, if announcesFlush code then .flush else .type)
  | .flush =>
    if code = 0b111#3 then some (.instrType code, .flush)
    else if h : code.toNat < 6 then some (.flushed ⟨code.toNat, h⟩, .type)
    else none

/-- The reports of a stream of VF codes; it stops at a reserved code. -/
def vfDecodeAll : VfState → List (BitVec 3) → List VfReport
  | _, [] => []
  | st, c :: cs =>
    match vfDecode st c with
    | none => []
    | some (r, st') => r :: vfDecodeAll st' cs

/-- A 011 is a VSYNC report only after 000, 001 or 010 (R197). -/
def isVsyncReport (previous code : BitVec 3) : Bool :=
  code == 0b011#3 && (previous == 0b000#3 || previous == 0b001#3 || previous == 0b010#3)

/-- The start address of a trace window from the first two reports, the first two captured addresses and the
displacement of the direct branch at an address (R200). `none` for the pairs the table does not have (N23). -/
def traceStart (vf1 vf2 : BitVec 3) (t1 t2 : Word) (offset : Word → Word) : Option Word :=
  if vf1 = 0b011#3 then
    if vf2 = 0b001#3 then some t1
    else if vf2 = 0b110#3 then some (t1 - 4#32 + offset (t1 - 4#32))
    else if vf2 = 0b101#3 then some t2
    else none
  else none

/-! ### Back trace and window trace (R201, R202) -/

/-- A report of an assertion or negation of VSYNC. -/
def vsyncReport : TraceEvent := .typeCode 0b011#3

/-- The external hardware samples the status pins and the addresses of the marked cycles; it leaves out the other show
cycles (R201). -/
def sampled : TraceEvent → Bool
  | .showCycle _ ptc => ptc
  | .typeCode _ | .queueFlush _ | .historyFlush _ => true

/-- The events up to the `n`-th report of VSYNC, with it: sampling stops there (R198). -/
def uptoVsync : Nat → List TraceEvent → List TraceEvent
  | 0, _ => []
  | _ + 1, [] => []
  | n + 1, e :: es => e :: uptoVsync (if e == vsyncReport then n else n + 1) es

/-- The buffer of a back trace: sampled from the negation of reset on, where `events` begins, until VSYNC, asserted
sometime after it, is negated and that is reported (R201). -/
def backTrace (events : List TraceEvent) : List TraceEvent := (uptoVsync 2 events).filter sampled

/-- The buffer of a window trace: sampled from the first report of VSYNC, steps 8 and 9, until the second, steps 12 and
13 (R202). -/
def windowTrace (events : List TraceEvent) : List TraceEvent := backTrace (events.dropWhile (fun e => e != vsyncReport))

/-- The captured addresses of a buffer, in order. -/
def captured (buffer : List TraceEvent) : List (BitVec 30) :=
  buffer.filterMap fun
    | .showCycle a ptc => if ptc then some a else none
    | .typeCode _ | .queueFlush _ | .historyFlush _ => none

/-- The captured type codes of a buffer, in order. -/
def typeCodes (buffer : List TraceEvent) : List (BitVec 3) :=
  buffer.filterMap fun
    | .typeCode c => some c
    | .showCycle _ _ | .queueFlush _ | .historyFlush _ => none

/-- "The start address is the first address in the program trace cycle buffer" (R201). -/
def backTraceStart (events : List TraceEvent) : Option (BitVec 30) := (captured (backTrace events)).head?

/-- The start address of a window trace, from its first two reports and addresses (R200, R202). Where the first report
decides by T1 alone the second address is not needed. -/
def windowTraceStart (events : List TraceEvent) (offset : Word → Word) : Option Word :=
  match typeCodes (windowTrace events), captured (windowTrace events) with
  | vf1 :: vf2 :: _, [t1] => if vf2 = 0b101#3 then none else traceStart vf1 vf2 (t1 ++ 0#2) 0#32 offset
  | vf1 :: vf2 :: _, t1 :: t2 :: _ => traceStart vf1 vf2 (t1 ++ 0#2) (t2 ++ 0#2) offset
  | _, _ => none

end Sys2Proof.Machine
end

