-- ==== Sys2Proof/Safety.lean ====
section
/-! DEFINITION. The terms the claims use: what stays the same over an instruction, what a special register reads as
and stores by its own rule of 10_state.md and 43_cpu_instructions.md, the invariants of the machine, and what a
run without a stop is. -/

namespace Sys2Proof.Machine

/-! ### What stays the same -/

/-- Every byte of memory reads as before. -/
def SameMemory (s t : State) : Prop := ∀ a, memRead a t.mem = memRead a s.mem

/-- Every byte of memory reads as before, except the four bytes from `a` on. -/
def SameMemoryBut (a : Word) (s t : State) : Prop :=
  ∀ b, b ≠ a.toNat → b ≠ (a + 1#32).toNat → b ≠ (a + 2#32).toNat → b ≠ (a + 3#32).toNat →
    memRead b t.mem = memRead b s.mem

/-- Every general register is unchanged. -/
def SameGprs (s t : State) : Prop := ∀ q, readGpr q t = readGpr q s

/-- Every general register but one is unchanged. -/
def SameGprsBut (r : Reg) (s t : State) : Prop := ∀ q, q ≠ r → readGpr q t = readGpr q s

/-- MSR and the registers exceptions save into are unchanged. -/
def SameExceptionRegs (s t : State) : Prop :=
  t.cpu.msr = s.cpu.msr ∧ t.cpu.srr0 = s.cpu.srr0 ∧ t.cpu.srr1 = s.cpu.srr1 ∧ t.cpu.dar = s.cpu.dar ∧
    t.cpu.dsisr = s.cpu.dsisr

/-- The modes, the inputs and what the CPU waits for are unchanged. -/
def SameModes (s t : State) : Prop :=
  t.mode = s.mode ∧ t.ext = s.ext ∧ t.cpu.wait = s.cpu.wait ∧ t.cpu.dpir = s.cpu.dpir ∧
    t.cpu.checkStop = s.cpu.checkStop

/-- The port but for its shift register, its status flags and what it shifted out is unchanged. -/
def SamePortControl (s t : State) : Prop :=
  t.port.tecr = s.port.tecr ∧ t.port.dlip = s.port.dlip ∧ t.port.dlEnd = s.port.dlEnd ∧
    t.port.dlStore = s.port.dlStore

/-! ### Fields, fetches and watchpoints -/

/-- The field of `n` bits of a 32-bit register that begins at bit `a` of the spec's numbering (00_scope.md R4). -/
def specField (w : Word) (a n : Nat) : BitVec n := (w >>> (32 - a - n)).setWidth n

/-- The CPU's next step fetches the instruction `i`, whose word stands at the pc: no input is left, debug mode is off
and nothing else is to be taken before it. -/
def Fetches (s : State) (w : Word) (i : CpuInstr) : Prop :=
  s.ext.inputs = [] ∧ s.cpu.checkStop = false ∧ s.mode.dm = false ∧ (s.port.tecr.nmbrk && s.nmbrkTaken) = false ∧
    pendingEvents s = [] ∧ s.trace.isct ≠ 0b100#3 ∧ s.ext.cpuExc = none ∧ memReadWord s.cpu.pc s.mem = some w ∧
    decodeCpu w = some i

/-- 41_watchpoints_breakpoints.md R270 for one bus cycle, with the fields of LCTRL2 that begin at bit `p` (LWP0: 0, LWP1:
10): enabled, and each condition that is not "don't care" holds. `e`, `f'`, `g` and `h` are the matches of E and F and,
lane by lane, of G and H. -/
def LwpRule (lctrl2 : Word) (p : Nat) (f : Flight) (e f' : Bool) (g h : Nat → Bool) : Prop :=
  lctrl2.getMsbD p = true ∧
  (lctrl2.getMsbD (p + 3) = true →
    match lctrl2.getMsbD (p + 1), lctrl2.getMsbD (p + 2) with
    | false, false => f.iwp0 = true
    | false, true => f.iwp1 = true
    | true, false => f.iwp2 = true
    | true, true => f.iwp3 = true) ∧
  (lctrl2.getMsbD (p + 6) = true →
    match lctrl2.getMsbD (p + 4), lctrl2.getMsbD (p + 5) with
    | false, false => e = true
    | false, true => f' = true
    | true, false => e = true ∧ f' = true
    | true, true => e = true ∨ f' = true) ∧
  (lctrl2.getMsbD (p + 9) = true →
    ∃ j, j < 4 ∧
      match lctrl2.getMsbD (p + 7), lctrl2.getMsbD (p + 8) with
      | false, false => g j = true
      | false, true => h j = true
      | true, false => g j = true ∧ h j = true
      | true, true => g j = true ∨ h j = true)

/-- R270 for one bus cycle under a programming; the free values of the cycle begin at `n` (log 16). -/
def LwpMeets (d : Dev) (p : Nat) (f : Flight) (n : Nat) (c : BusCycle) : Prop :=
  LwpRule d.lctrl2 p f (matchE d c (Config.freeBool n)) (matchF d c (Config.freeBool (n + 1)))
    (dataMatch (compareG d) c (fun l => Config.freeBool (n + 2 + l)))
    (dataMatch (compareH d) c (fun l => Config.freeBool (n + 6 + l)))

/-! ### Transmissions -/

/-- The instruction is a serial transmission of the tool: its encoding is a frame, not a CPU word. -/
def isTransmission (i : Instr) : Bool :=
  match encode i with
  | .word _ => false
  | .dp10 _ | .dp35 _ => true

/-- The output frame of the next transmission carries no error status, so its input is acted on
(42_development_port.md R330, R333; outside debug mode log 42). -/
def NoErrorStatus (s : State) : Prop :=
  (s.mode.dm = true ∧ s.port.pValid = true) ∨
    (s.port.pSeq = false ∧ (s.mode.dm = false ∨ s.port.pInt = false))

/-- `CMD_NOP` and the 28 reserved commands (30_encoding.md R145). -/
def nopCommands (x : BitVec 2) (y : BitVec 1) : List Instr :=
  [.cmdNop x, .cmdReserved0x00011 y, .cmdReserved00100 x, .cmdReserved00101 x, .cmdReserved00110 x,
    .cmdReserved00111 x, .cmdReserved01000 x, .cmdReserved01001 x, .cmdReserved01010 x, .cmdReserved01011 x,
    .cmdReserved01100 x, .cmdReserved01101 x, .cmdReserved01110 x, .cmdReserved01111 x, .cmdReserved10000 x,
    .cmdReserved10001 x, .cmdReserved10010 x, .cmdReserved10011 x, .cmdReserved10100 x, .cmdReserved10101 x,
    .cmdReserved10110 x, .cmdReserved10111 x, .cmdReserved11000 x, .cmdReserved11001 x, .cmdReserved11010 x,
    .cmdReserved11011 x, .cmdReserved11100 x, .cmdReserved11101 x, .cmdReserved11110 x]

/-! ### The special registers by their rules -/

/-- CNTV of a counter reads exactly (43_cpu_instructions.md R402, 10_state.md R33): the counter is not active or a
`sync` came before, and the instruction in flight is not one it counts. -/
def CounterExact (c : Counter) (synced iwp : Bool) (s : State) : Prop :=
  (c.cntc = 0b00#2 ∨ c.cntc = 0b11#2 ∨ synced = true) ∧
    ¬(c.cntc = 0b01#2 ∧ iwp = true ∧ (s.dev.lctrl2.getMsbD 20 = true ∨ s.cpu.msr.ri = true) ∧ s.mode.dm = false)

/-- The word a register reads as, with 0 in its reserved bits (R396 to R411). -/
def sprStored (n : Spr) (s : State) : Word :=
  match n with
  | .cmpa => s.dev.cmpa ++ 0#2
  | .cmpb => s.dev.cmpb ++ 0#2
  | .cmpc => s.dev.cmpc ++ 0#2
  | .cmpd => s.dev.cmpd ++ 0#2
  | .ecr => s.dev.ecr
  | .der => s.dev.der
  | .counta => s.dev.counta.cntv ++ 0#14 ++ s.dev.counta.cntc
  | .countb => s.dev.countb.cntv ++ 0#14 ++ s.dev.countb.cntc
  | .cmpe => s.dev.cmpe
  | .cmpf => s.dev.cmpf
  | .cmpg => s.dev.cmpg
  | .cmph => s.dev.cmph
  | .lctrl1 => s.dev.lctrl1
  | .lctrl2 =>
    s.dev.lctrl2 ||| (0#28 ++ BitVec.ofBool s.port.tecr.lw0 ++ BitVec.ofBool s.port.tecr.lw1 ++ 0#2)
  | .ictrl =>
    s.dev.ictrl ||| (0#24 ++ BitVec.ofBool s.port.tecr.iw0 ++ BitVec.ofBool s.port.tecr.iw1 ++
      BitVec.ofBool s.port.tecr.iw2 ++ BitVec.ofBool s.port.tecr.iw3 ++ 0#4)
  | .bar => s.dev.bar
  | .dpdr => 0#32

/-- The reserved bits of a register (93_implementation_defined.md U11). -/
def sprReserved : Spr → Word
  | .cmpa | .cmpb | .cmpc | .cmpd | .lctrl1 => 0x00000003#32
  | .ecr | .der => 0x8C18ABF0#32
  | .counta | .countb => 0x0000FFFC#32
  | .lctrl2 => 0x000007F0#32
  | .cmpe | .cmpf | .cmpg | .cmph | .ictrl | .bar => 0#32
  | .dpdr => 0xFFFFFFFF#32

/-- The registers after a performed write of `v` (R396 to R411): reserved and read only bits ignore it. -/
def sprWritten (n : Spr) (v : Word) (d : Dev) : Dev :=
  match n with
  | .cmpa => { d with cmpa := v.extractLsb' 2 30 }
  | .cmpb => { d with cmpb := v.extractLsb' 2 30 }
  | .cmpc => { d with cmpc := v.extractLsb' 2 30 }
  | .cmpd => { d with cmpd := v.extractLsb' 2 30 }
  | .ecr => d
  | .der => { d with der := v &&& 0x73E7540F#32 }
  | .counta => { d with counta := ⟨v.extractLsb' 16 16, v.extractLsb' 0 2⟩ }
  | .countb => { d with countb := ⟨v.extractLsb' 16 16, v.extractLsb' 0 2⟩ }
  | .cmpe => { d with cmpe := v }
  | .cmpf => { d with cmpf := v }
  | .cmpg => { d with cmpg := v }
  | .cmph => { d with cmph := v }
  | .lctrl1 => { d with lctrl1 := v &&& 0xFFFFFFFC#32 }
  | .lctrl2 => { d with lctrl2 := v &&& 0xFFFFF803#32 }
  | .ictrl => { d with ictrl := v &&& 0xFFFFFF0F#32 }
  | .bar => { d with bar := v }
  | .dpdr => d

/-- The registers whose `mtspr` the trace may mark (R422). -/
def sprMayBeMarked : Spr → Bool
  | .cmpa | .cmpb | .cmpc | .cmpd | .cmpe | .cmpf | .ictrl | .ecr | .der => true
  | .cmpg | .cmph | .lctrl1 | .lctrl2 | .counta | .countb | .bar | .dpdr => false

/-- The trace reports of a completed instruction (40_program_trace.md R189, R195): a type code outside debug mode,
nothing in it. -/
def Reported (code : BitVec 3) (s t : State) : Prop :=
  t.trace.events = s.trace.events ++ (if s.mode.dm then [] else [.typeCode code])

/-! ### Invariants -/

/-- The memory has its canonical form (log 8). -/
def MemoryCanonical (s : State) : Prop := Memory.wf s.mem = true

/-- The two lowest bits of the pc are 0 (10_state.md R54). -/
def PcAligned (s : State) : Prop := s.cpu.pc.extractLsb' 0 2 = 0#2

/-- The modes are consistent (43_cpu_instructions.md R391, 60_exceptions.md R452, R461): in debug mode, debug mode
is enabled, freeze is asserted and MSR.EE is 0; outside it the CPU waits for nothing and holds no word of the port;
with debug mode enabled no enabled cause is left outside debug mode. -/
structure ModesConsistent (s : State) : Prop where
  enabled : s.mode.dm = true → s.mode.dme = true
  frozen : s.mode.dm = true → s.mode.frz = true
  masked : s.mode.dm = true → s.cpu.msr.ee = false
  notWaiting : s.mode.dm = false → s.cpu.wait = CpuWait.none ∧ s.cpu.dpir = none
  noCauseLeft : s.mode.dme = true → s.mode.dm = false → s.dev.ecr &&& s.dev.der = 0#32

/-- The bits of the control registers that are reserved or read only hold nothing (10_state.md R26 to R29, R34, R36),
and no MSR bit is held twice. -/
structure ReservedClear (s : State) : Prop where
  ecr : s.dev.ecr &&& 0x8C18ABF0#32 = 0#32
  der : s.dev.der &&& 0x8C18ABF0#32 = 0#32
  ictrl : s.dev.ictrl &&& 0x000000F0#32 = 0#32
  lctrl1 : s.dev.lctrl1 &&& 0x00000003#32 = 0#32
  lctrl2 : s.dev.lctrl2 &&& 0x000007FC#32 = 0#32
  msr : s.cpu.msr.other &&& 0x0000D602#32 = 0#32

/-- The next thing to happen is a reset: an input of the outside, or a command the port acts on. -/
def ResetNext (s : State) : Prop :=
  match s.ext.inputs with
  | .reset _ :: _ => True
  | .frame f :: _ =>
    ∃ x : BitVec 2, decode (frameCode f) = .ok (.cmdHreset x) ∨ decode (frameCode f) = .ok (.cmdSreset x)
  | _ => False

/-! ### Runs -/

/-- The machine takes `k` steps without a fault or a refusal and is then in `t`. -/
def RunsTo (k : Nat) (s t : State) : Prop := Host.Core.run Sys2Proof.core k s = .next t

end Sys2Proof.Machine
end

