-- ==== Sys2Proof/Certificates/Slice0/Obligations.lean ====
section
/-! DEFINITION. The statements for the provers, from the numbered rules of spec/. A clause that rests on a choice of the
model or of the spec names its log entry. -/

open Sys2Proof Sys2Proof.Machine

/-- For every well-formed instruction, of all 76 rows and with every operand value the encoding admits, decode
(encode i) = ok i.
(derived: R141 R142 R143 R144 R146 R157 R158 R159 R161 R162) -/
def Obligations.DecodeEncodeAgree : Prop :=
  ∀ i : Instr, i.WellFormed → decode (encode i) = .ok i

/-- If a 32-bit word, a 10-bit frame or a 35-bit frame decodes to an instruction, that instruction is well
formed and its encoding is exactly these bits. A word that the CPU executes, a row of the table or mfspr and
mtspr of SRR0, SRR1, DAR and DSISR (log 53), is the encoding of what it executes.
(derived: R141 R142 R144 R145 R157 R158 R159 R162) -/
def Obligations.EncodeDecodeAgree : Prop :=
  (∀ (c : Code) (i : Instr), decode c = .ok i → i.WellFormed ∧ encode i = c) ∧
  (∀ (w : Word) (i : CpuInstr), decodeCpu w = some i → encodeCpu i = .word w)

/-- rfi is 0x4C000064, isync 0x4C00012C, sync 0x7C0004AC; mfspr r31,DPDR, stwu r31,4(r30), mtmsr r3, mtspr
DER,r5 and mfspr r4,ECR; the frames of INSTR, DATA, TECR, CMD_BRK, CMD_START_DOWNLOAD and CMD_END_DOWNLOAD.
(derived: R143 R144 R145 R146 R157 R158 R159 R161 R162) -/
def Obligations.DecodeSpecWords : Prop :=
  decode (.word 0x4C000064#32) = .ok .rfi ∧
  decode (.word 0x4C00012C#32) = .ok .isync ∧
  decode (.word 0x7C0004AC#32) = .ok .sync ∧
  decode (.word 0x7FF69AA6#32) = .ok (.mfsprDpdr 31#5) ∧
  decode (.word 0x97FE0004#32) = .ok (.stwu 31#5 4 30#5) ∧
  decode (.word 0b011111_00011_00000_00000_0010010010_0#32) = .ok (.mtmsr 3#5) ∧
  decode (.word 0b011111_00101_10101_00100_0111010011_0#32) = .ok (.mtsprDer 5#5) ∧
  decode (.word 0b011111_00100_10100_00100_0101010011_0#32) = .ok (.mfsprEcr 4#5) ∧
  decode (.dp35 0b100_01001100000000000000000001100100#35) = .ok (.instr 0x4C000064#32) ∧
  decode (.dp35 0b101_00000000000000000000000000000111#35) = .ok (.data 7#32) ∧
  decode (.dp10 0b110_1000001#10) = .ok (.tecr 0b1000001#7) ∧
  decode (.dp10 0b111_10_11111#10) = .ok (.cmdBrk true false) ∧
  decode (.dp10 0b111_11_00011#10) = .ok .cmdStartDownload ∧
  decode (.dp10 0b111_10_00011#10) = .ok .cmdEndDownload

/-- With no input left, no event pending and no exception of the CPU to come, if the word at the pc decodes to
i, the step is the meaning of i in the state after the fetch, followed by retirement, unless an instruction
breakpoint is taken at the fetch, which is then the whole step. A word that decodes to a row of the table is
that row, whose meaning is exec; the only others are mfspr and mtspr of SRR0, SRR1, DAR and DSISR (log 53).
(derived: R232 R291 R556) -/
def Obligations.StepRunsDecodedInstruction : Prop :=
  (∀ (w : Word) (i : Instr), decodeWord w = .ok i → decodeCpu w = some (.table i)) ∧
  (∀ (i : Instr) (s : State), execCpu (.table i) s = exec i s) ∧
  ∀ (s : State) (w : Word) (i : CpuInstr), s.ext.inputs = [] → s.cpu.checkStop = false → s.mode.dm = false →
    (s.port.tecr.nmbrk && s.nmbrkTaken) = false → pendingEvents s = [] → s.trace.isct ≠ 0b100#3 →
    s.ext.cpuExc = none → memReadWord s.cpu.pc s.mem = some w → decodeCpu w = some i →
    step s =
      if instrBreakTaken (some i) (fetched s) then
        .next (finish (fetched s) (takeInstrBreak (some i) (fetched s)))
      else
        match execCpu i (passBreak (fetched s)) with
        | .next t => .next (finish (fetched s) (retire i (fetched s) (settleIfm (some i) (fetched s) t)))
        | .fault r => .fault r
        | .refused r => .refused r

/-- In debug mode, with a word delivered by the port that decodes to i, no input left and no NMI, machine check
or CPU exception to come, the step is the meaning of i with the word used up, followed by the next fetch
from the port. A word that decodes to a row of the table is that row, whose meaning is exec; the only others
are mfspr and mtspr of SRR0, SRR1, DAR and DSISR (log 53).
(derived: R350 R421 R556) -/
def Obligations.StepRunsDeliveredInstruction : Prop :=
  (∀ (w : Word) (i : Instr), decodeWord w = .ok i → decodeCpu w = some (.table i)) ∧
  (∀ (i : Instr) (s : State), execCpu (.table i) s = exec i s) ∧
  ∀ (s : State) (w : Word) (i : CpuInstr), s.ext.inputs = [] → s.cpu.checkStop = false → s.mode.dm = true →
    s.cpu.wait = CpuWait.none → s.cpu.dpir = some w → s.ext.nmi = false → s.ext.machineCheck = false →
    s.ext.cpuExc = none → decodeCpu w = some i →
    step s =
      match execCpu i { s with cpu.dpir := none } with
      | .next t => .next (finishDebug s (traceInDebug i s t))
      | .fault r => .fault r
      | .refused r => .refused r

/-- If the next input is a frame, ready is asserted (outside debug mode, or the CPU waiting for an instruction
or for data) and its bits decode to i, the step is exec i with the frame taken from the inputs.
(derived: R325 R326 R367 R556) -/
def Obligations.StepTakesTransmission : Prop :=
  ∀ (s : State) (f : Frame) (rest : List Input) (i : Instr), s.ext.inputs = .frame f :: rest →
    (s.mode.dm = false ∨ s.cpu.wait ≠ CpuWait.none) → decode (frameCode f) = .ok i →
    step s = exec i { s with ext.inputs := rest }

/-- If the memory list is canonical (addresses strictly rising, below 2^32) and the step answers next, it is
canonical again. The list form is the model's own (log 8).
(derived: R100 R103 R417) -/
def Obligations.StepKeepsMemoryCanonical : Prop :=
  ∀ s t : State, MemoryCanonical s → step s = .next t → MemoryCanonical t

/-- If bits 30:31 of the pc are 0 and the step answers next, they are 0 again: after an instruction, an
exception, a return and a reset. The reset vector and the form of the vectors are the model's (log 2, log
11).
(derived: R54 R107 R413) -/
def Obligations.StepKeepsPcAligned : Prop :=
  ∀ s t : State, PcAligned s → step s = .next t → PcAligned t

/-- In debug mode: debug mode is enabled, freeze is asserted, MSR.EE is 0. Outside it: the CPU waits for nothing
and holds no word of the port, and with debug mode enabled no enabled cause is left. If this holds and the
step answers next, it holds again.
(derived: R391 R452 R461 R470 R471 R482) -/
def Obligations.StepKeepsModesConsistent : Prop :=
  ∀ s t : State, ModesConsistent s → step s = .next t → ModesConsistent t

/-- The reserved bits of ECR, DER, LCTRL1 and LCTRL2 and the read only bits of ICTRL and LCTRL2 hold nothing,
and the unnamed part of the MSR holds no named bit. If this holds and the step answers next, it holds again.
The MSR layout is the family's (log 1).
(derived: R26 R28 R29 R34 R36 U11) -/
def Obligations.StepKeepsReservedClear : Prop :=
  ∀ s t : State, ReservedClear s → step s = .next t → ReservedClear t

/-- The memory is canonical, the pc aligned, the modes consistent and the reserved bits clear in State.reset.
The pc and the MSR at reset are the model's values (log 1, log 2).
(derived: R521 R522) -/
def Obligations.ResetMeetsInvariants : Prop :=
  MemoryCanonical State.reset ∧ PcAligned State.reset ∧ ModesConsistent State.reset ∧ ReservedClear State.reset

/-- Unless a reset comes next (an input, or a reset command the port is offered), a step that answers next
leaves DME as it is; and a reset sets it to the level sampled on DSCK.
(stated: R42) -/
def Obligations.OnlyResetChangesDebugModeEnable : Prop :=
  (∀ s t : State, ¬ResetNext s → step s = .next t → t.mode.dme = s.mode.dme) ∧
  (∀ (k : ResetKind) (s : State), (resetMachine k s).mode.dme = s.ext.pins.dsckEnable)

/-- With DME = 0 and DM = 0, unless a reset comes next, a step that answers next leaves DM = 0. If the machine
is in debug mode, no reset comes next and a step leaves debug mode, then the word delivered to the CPU was
rfi, 0x4C000064.
(derived: R440 R451 R488 R43 R470 R460) -/
def Obligations.DebugModeEntryAndExitAreGuarded : Prop :=
  (∀ s t : State, s.mode.dme = false → s.mode.dm = false → ¬ResetNext s → step s = .next t → t.mode.dm = false) ∧
  (∀ s t : State, s.mode.dm = true → ¬ResetNext s → step s = .next t → t.mode.dm = false →
      s.cpu.dpir = some 0x4C000064#32)

/-- If a step changes DER and no reset comes next, the word the CPU executed, delivered by the port in debug
mode or stored at the pc outside it, is an mtspr DER.
(derived: R37 R460 R521) -/
def Obligations.DerChangedOnlyByMtsprOrReset : Prop :=
  ∀ s t : State, ¬ResetNext s → step s = .next t → t.dev.der ≠ s.dev.der →
    ∃ (w : Word) (rs : Reg), decodeWord w = .ok (.mtsprDer rs) ∧
      ((s.mode.dm = true ∧ s.cpu.dpir = some w) ∨ (s.mode.dm = false ∧ memReadWord s.cpu.pc s.mem = some w))

/-- With DME = 1 and DM = 0, unless a reset comes next, a step that answers next leaves CMPA to CMPH, DER,
LCTRL1, LCTRL2, the sources of both counters and ICTRL but for IFM as they are.
(derived: R393 R394 R488) -/
def Obligations.ProtectedRegistersKeepOutsideDebugMode : Prop :=
  ∀ s t : State, s.mode.dme = true → s.mode.dm = false → ¬ResetNext s → step s = .next t →
    t.dev.cmpa = s.dev.cmpa ∧ t.dev.cmpb = s.dev.cmpb ∧ t.dev.cmpc = s.dev.cmpc ∧ t.dev.cmpd = s.dev.cmpd ∧
    t.dev.cmpe = s.dev.cmpe ∧ t.dev.cmpf = s.dev.cmpf ∧ t.dev.cmpg = s.dev.cmpg ∧ t.dev.cmph = s.dev.cmph ∧
    t.dev.der = s.dev.der ∧ t.dev.lctrl1 = s.dev.lctrl1 ∧ t.dev.lctrl2 = s.dev.lctrl2 ∧
    t.dev.counta.cntc = s.dev.counta.cntc ∧ t.dev.countb.cntc = s.dev.countb.cntc ∧
    t.dev.ictrl &&& 0xFFFFFFF7#32 = s.dev.ictrl &&& 0xFFFFFFF7#32

/-- With MSR.PR = 0, mfspr of each of the sixteen stored registers completes: rD holds the register in every bit
that is not reserved (of an active counter that is not synchronised, in CNTC only), the pc advances by 4,
the ECR is cleared if it was read with DME = 0 or DM = 1, the report is sequential, and every other
register, the port, the modes and every byte of memory are unchanged. When CNTV reads exactly is the model's
reading of R33 (log 22), what an instruction that is itself counted reads is log 23, and that CNTC = 11 does
not count is log 48: DEDUCED, unsafe.
(derived: R390 R392 R396 R400 R401 R402 R404 R406 R408 R409 R410 R411) -/
def Obligations.MfsprReads : Prop :=
  ∀ (n : Spr) (rd : Reg) (s : State), n ≠ .dpdr → s.cpu.msr.pr = false →
    ∃ t, exec (.mfspr rd n) s = .next t ∧
      ((n = .counta → CounterExact s.dev.counta s.syncedA s.cpu.flight.iwp0 s) →
        (n = .countb → CounterExact s.dev.countb s.syncedB s.cpu.flight.iwp1 s) →
        readGpr rd t &&& ~~~sprReserved n = sprStored n s &&& ~~~sprReserved n) ∧
      ((n = .counta ∨ n = .countb) → readGpr rd t &&& 3#32 = sprStored n s &&& 3#32) ∧
      t.dev = (if n = .ecr ∧ (s.mode.dme = false ∨ s.mode.dm = true) then { s.dev with ecr := 0#32 } else s.dev) ∧
      t.cpu.pc = s.cpu.pc + 4#32 ∧ SameGprsBut rd s t ∧ SameExceptionRegs s t ∧ SameModes s t ∧
      t.port = s.port ∧ SameMemory s t ∧ Reported 0b001#3 s t

/-- A performed mfspr ECR puts the cause bits of the ECR into rD, while its reserved bits read as free values
(log 17); then the ECR is 0 if DME = 0 or DM = 1 and unchanged if DME = 1 and DM = 0. An mtspr ECR that is
performed completes and leaves the ECR unchanged. mfspr DPDR, with MSR.PR = 0: in debug mode the CPU then
waits for data with rD remembered, and no general register changes; outside debug mode only rD may change,
nothing waits, and the instruction is reported as sequential. The pc advances by 4; every other register,
the port and memory are unchanged.
(derived: R35 R400 R34 R392 R352 R357 R412 D10 U11) -/
def Obligations.MfsprEcrAndDpdr : Prop :=
  ((∀ (rd : Reg) (s : State), s.cpu.msr.pr = false →
      ∃ t, exec (.mfsprEcr rd) s = .next t ∧ readGpr rd t &&& 0x73E7540F#32 = s.dev.ecr &&& 0x73E7540F#32 ∧
        ((s.mode.dme = false ∨ s.mode.dm = true) → t.dev.ecr = 0#32) ∧
        ((s.mode.dme = true ∧ s.mode.dm = false) → t.dev.ecr = s.dev.ecr)) ∧
    (∀ (rs : Reg) (s : State), s.cpu.msr.pr = false →
      ∃ t, exec (.mtsprEcr rs) s = .next t ∧ t.dev.ecr = s.dev.ecr)) ∧
  (∀ (rd : Reg) (s : State), s.cpu.msr.pr = false →
      ∃ t, exec (.mfsprDpdr rd) s = .next t ∧ t.cpu.pc = s.cpu.pc + 4#32 ∧ t.dev = s.dev ∧ t.port = s.port ∧
        t.mode = s.mode ∧ t.ext = s.ext ∧ t.cpu.dpir = s.cpu.dpir ∧ t.cpu.checkStop = s.cpu.checkStop ∧
        SameExceptionRegs s t ∧ SameMemory s t ∧ Reported 0b001#3 s t ∧
        (if s.mode.dm then t.cpu.wait = .data rd ∧ SameGprs s t
         else t.cpu.wait = s.cpu.wait ∧ SameGprsBut rd s t))

/-- With MSR.PR = 0, and DME = 0 or DM = 1, mtspr of each of the seventeen registers completes: the register
holds rS in its writable bits (the ECR ignores the write), the pc advances by 4, and every other special
register, every general register, the exception registers, the modes and every byte of memory are unchanged.
The port is unchanged but for DPDR in debug mode, which loads the data bits of the shift register and sets
P_VALID. With MSR.PR = 0, DME = 1 and DM = 0, mtspr of any of the seventeen registers completes (the pc
advances by 4) and changes no development support register, no general register, no exception register,
nothing in the port and no byte of memory. The rules of the seventeen writes are R396 to R412. The modes and
FRZ are unchanged also by an mtspr DER that enables a cause already set: there the model follows D4 and R481
against the derived remark of R401, its own choice (log 50, DEDUCED, unsafe). That the read only bits of
ICTRL and LCTRL2 ignore the write is the spec's own choice (D25). Which mtspr the trace marks, of those R422
names, is open (log 21).
(derived: R393 R394 R396 R400 R401 R404 R406 R408 R411 R353 D4 D25) -/
def Obligations.MtsprWritesOrIsNotPerformed : Prop :=
  (∀ (n : Spr) (rs : Reg) (s : State), s.cpu.msr.pr = false → (s.mode.dme = false ∨ s.mode.dm = true) →
      ∃ t, exec (.mtspr rs n) s = .next t ∧ t.dev = sprWritten n (readGpr rs s) s.dev ∧
        t.cpu.pc = s.cpu.pc + 4#32 ∧ SameGprs s t ∧ SameExceptionRegs s t ∧ SameModes s t ∧ SameMemory s t ∧
        ((n ≠ .dpdr ∨ s.mode.dm = false) → t.port = s.port) ∧
        (n = .dpdr → s.mode.dm = true → t.port.shift.extractLsb' 0 32 = readGpr rs s ∧ t.port.pValid = true ∧
          t.port.pSeq = s.port.pSeq ∧ t.port.pInt = s.port.pInt ∧ SamePortControl s t ∧
          t.port.dsdo = s.port.dsdo) ∧
        (sprMayBeMarked n = false → Reported 0b001#3 s t) ∧
        (sprMayBeMarked n = true → Reported 0b001#3 s t ∨ Reported 0b101#3 s t)) ∧
  (∀ (n : Spr) (rs : Reg) (s : State), s.cpu.msr.pr = false → s.mode.dme = true → s.mode.dm = false →
      ∃ t, exec (.mtspr rs n) s = .next t ∧ t.dev = s.dev ∧ t.port = s.port ∧ t.cpu.pc = s.cpu.pc + 4#32 ∧
        SameGprs s t ∧ SameExceptionRegs s t ∧ SameModes s t ∧ SameMemory s t)

/-- With MSR.PR = 1, mfspr and mtspr of every register, rfi and mtmsr take the program exception: ECR.PRE is
set, no other development support register, no general register, nothing in memory changes, and debug mode
is entered or the handler's address becomes the pc as R450 says; in debug mode the exception is only
recorded. That in debug mode the instruction leaves its destination as it is, where R460 would draw it, is
the model's choice (log 34).
(derived: R392 R393 R395 R413 R414 R486 R488) -/
def Obligations.UserModeAccessIsProgramException : Prop :=
  ∀ (n : Spr) (r : Reg) (s : State) (i : Instr),
    i = .mfspr r n ∨ i = .mtspr r n ∨ i = .rfi ∨ i = .mtmsr r → s.cpu.msr.pr = true →
    ∃ t, exec i s = .next t ∧ t.dev = { s.dev with ecr := s.dev.ecr ||| 0x00800000#32 } ∧ SameGprs s t ∧
      SameMemory s t ∧
      (if s.mode.dm then t.port.pInt = true ∧ t.mode = s.mode ∧ t.cpu.pc = s.cpu.pc ∧ SameExceptionRegs s t
       else if s.dev.der.getMsbD 8 && s.mode.dme then
         t.mode.dm = true ∧ t.mode.frz = true ∧ t.cpu.msr.pr = false ∧ t.cpu.msr.ee = false ∧
           t.cpu.wait = CpuWait.instr
       else
         t.mode.dm = false ∧ t.cpu.pc = Config.vectorWord .program s.cpu.msr ++ 0#2 ∧ t.cpu.msr.ri = false ∧
           t.cpu.msr.ee = false)

/-- With MSR.PR = 0 and, in debug mode, no enabled cause left or debug mode disabled: the pc is SRR0 with its
two low bits 0, the named MSR bits come from SRR1, DM = 0, FRZ is kept only if an enabled cause is left, the
report is 101 (011 after a VSYNC change in debug mode), the next fetch carries the program trace attribute,
and the registers, the port and memory are unchanged. In debug mode with debug mode enabled, MSR.PR = 0 and
(ECR and DER) not 0, rfi ends in debug mode with freeze asserted, MSR.PR and MSR.EE 0, the CPU waiting for
an instruction, and SRR0 holding the return address; the development support registers, the general
registers and memory are unchanged. That EE, PR, ME, SE, BE and RI are the bits that come from SRR1 (R413:
which bits is not in D0) and that the two low bits of SRR0 are dropped is the model's choice (log 14); where
the bits lie in SRR1 is an open parameter (log 12), what SRR0 holds at the re-entry is the model's choice
(log 12).
(derived: R413 R470 R471 R472 R482 R195 R190 R452 R546) -/
def Obligations.RfiReturnsOrReentersDebugMode : Prop :=
  (∀ s : State, s.cpu.msr.pr = false →
      (s.mode.dm = false ∨ s.dev.ecr &&& s.dev.der = 0#32 ∨ s.mode.dme = false) →
      ∃ t, exec .rfi s = .next t ∧ t.cpu.pc = s.cpu.srr0.extractLsb' 2 30 ++ 0#2 ∧
        t.cpu.msr.ee = srr1Bit s.cpu.srr1 16 ∧ t.cpu.msr.pr = srr1Bit s.cpu.srr1 17 ∧
        t.cpu.msr.me = srr1Bit s.cpu.srr1 19 ∧ t.cpu.msr.se = srr1Bit s.cpu.srr1 21 ∧
        t.cpu.msr.be = srr1Bit s.cpu.srr1 22 ∧ t.cpu.msr.ri = srr1Bit s.cpu.srr1 30 ∧
        t.mode = { s.mode with dm := false, frz := s.mode.frz && s.dev.ecr &&& s.dev.der != 0#32 } ∧
        t.trace.mark.ptc = true ∧
        t.trace.events = s.trace.events ++
          [.typeCode (if s.mode.dm && s.trace.vsyncChanged then 0b011#3 else 0b101#3)] ∧
        (s.mode.dm = true → t.cpu.wait = CpuWait.none ∧ t.trace.vsyncChanged = false) ∧
        t.cpu.srr0 = s.cpu.srr0 ∧ t.cpu.srr1 = s.cpu.srr1 ∧ t.cpu.dar = s.cpu.dar ∧ t.cpu.dsisr = s.cpu.dsisr ∧
        t.dev = s.dev ∧ t.port = s.port ∧ t.ext = s.ext ∧ SameGprs s t ∧ SameMemory s t) ∧
  (∀ s : State, s.cpu.msr.pr = false → s.mode.dm = true → s.mode.dme = true → s.dev.ecr &&& s.dev.der ≠ 0#32 →
      ∃ t, exec .rfi s = .next t ∧ t.mode.dm = true ∧ t.mode.frz = true ∧ t.cpu.msr.pr = false ∧
        t.cpu.msr.ee = false ∧ t.cpu.wait = CpuWait.instr ∧
        t.cpu.srr0 = s.cpu.srr0.extractLsb' 2 30 ++ 0#2 ∧ t.dev = s.dev ∧ t.port = s.port ∧
        t.cpu.dar = s.cpu.dar ∧ t.cpu.dsisr = s.cpu.dsisr ∧ SameGprs s t ∧ SameMemory s t)

/-- mtmsr: With MSR.PR = 0 (and, in debug mode, EE clear in rS): the named MSR bits are those of x[rS], every
other bit of x[rS] is kept at its position, the pc advances by 4, the report is 101 with the next fetch
marked (outside debug mode), and the registers, the port, the modes and memory are unchanged. In debug mode
with MSR.PR = 0, mtmsr with bit 16 of rS set ends in the refusal eeInDebugMode: the spec calls it strictly
forbidden and refuses it. The positions of the bits are the family's (log 1). isync and sync complete in
every state: the pc advances by 4, no register, no byte of memory, nothing in the port or the modes changes;
isync is reported as 101 with the next fetch marked (outside debug mode), sync as 001. After a sync the
counters are synchronized: with MSR.PR = 0 an mfspr COUNTA or COUNTB executed next, whose own instruction
watchpoint the counter does not count, reads CNTV and CNTC exactly, an active counter too. That a sync makes
all earlier counts visible and when CNTV is exact is the model's reading of R416, R33 and R541 (log 22,
DEDUCED, unsafe).
(derived: R414 R181 R190 R462 R547 R415 R416 R541 R33) -/
def Obligations.MtmsrIsyncAndSync : Prop :=
  (∀ (rs : Reg) (s : State), s.cpu.msr.pr = false →
      (s.mode.dm = false ∨ (readGpr rs s).getMsbD 16 = false) →
      ∃ t, exec (.mtmsr rs) s = .next t ∧ t.cpu.msr.ee = (readGpr rs s).getMsbD 16 ∧
        t.cpu.msr.pr = (readGpr rs s).getMsbD 17 ∧ t.cpu.msr.me = (readGpr rs s).getMsbD 19 ∧
        t.cpu.msr.se = (readGpr rs s).getMsbD 21 ∧ t.cpu.msr.be = (readGpr rs s).getMsbD 22 ∧
        t.cpu.msr.ri = (readGpr rs s).getMsbD 30 ∧ t.cpu.msr.other = readGpr rs s &&& 0xFFFF29FD#32 ∧
        t.cpu.pc = s.cpu.pc + 4#32 ∧ t.cpu.srr0 = s.cpu.srr0 ∧ t.cpu.srr1 = s.cpu.srr1 ∧
        t.cpu.dar = s.cpu.dar ∧ t.cpu.dsisr = s.cpu.dsisr ∧ t.dev = s.dev ∧ t.port = s.port ∧ SameModes s t ∧
        SameGprs s t ∧ SameMemory s t ∧ Reported 0b101#3 s t ∧
        (s.mode.dm = false → t.trace.mark.ptc = true)) ∧
  (∀ (rs : Reg) (s : State), s.cpu.msr.pr = false → s.mode.dm = true → (readGpr rs s).getMsbD 16 = true →
      exec (.mtmsr rs) s = .refused .eeInDebugMode) ∧
  (∀ s : State,
      (∃ t, exec .isync s = .next t ∧ t.cpu.pc = s.cpu.pc + 4#32 ∧ SameGprs s t ∧ t.dev = s.dev ∧ t.port = s.port ∧
        SameExceptionRegs s t ∧ SameModes s t ∧ SameMemory s t ∧ Reported 0b101#3 s t ∧
        (s.mode.dm = false → t.trace.mark.ptc = true)) ∧
      (∃ t, exec .sync s = .next t ∧ t.cpu.pc = s.cpu.pc + 4#32 ∧ SameGprs s t ∧ t.dev = s.dev ∧ t.port = s.port ∧
        SameExceptionRegs s t ∧ SameModes s t ∧ SameMemory s t ∧ Reported 0b001#3 s t ∧
        t.syncedA = true ∧ t.syncedB = true ∧
        (s.cpu.msr.pr = false → ∀ rd : Reg,
          ((s.dev.counta.cntc ≠ 0b01#2 ∨ s.cpu.flight.iwp0 = false) →
            ∃ u, exec (.mfsprCounta rd) t = .next u ∧
              readGpr rd u &&& 0xFFFF0003#32 = s.dev.counta.cntv ++ 0#14 ++ s.dev.counta.cntc) ∧
          ((s.dev.countb.cntc ≠ 0b01#2 ∨ s.cpu.flight.iwp1 = false) →
            ∃ u, exec (.mfsprCountb rd) t = .next u ∧
              readGpr rd u &&& 0xFFFF0003#32 = s.dev.countb.cntv ++ 0#14 ++ s.dev.countb.cntc))))

/-- For each of the four registers, which have no row in the table: the word with its number decodes to the
move. With MSR.PR = 0, debug mode enabled or not, in debug mode or not: mfspr puts the register into rD,
mtspr puts rS into the register; the pc advances by 4, the report is sequential, and every other register,
the MSR, the development support registers, the port, the modes and memory are unchanged. With MSR.PR = 1
both take the program exception and change no memory: outside debug mode no general register, DAR or DSISR
either; in debug mode it is recorded, MSR, SRR0 and SRR1 do not change, and only the destination of the move
may, whose value is open (R460, log 33). The numbers 26, 27, 19 and 18, that the whole word is copied, the
report, and the protection in user mode are the family's (log 53).
(derived: R390 R56 R470 R530 R460 GK3) -/
def Obligations.SaveRegisterMoves : Prop :=
  ∀ (r : Reg) (n : SaveReg) (number : BitVec 10) (s : State),
    number = (match n with
      | .srr0 => 26#10
      | .srr1 => 27#10
      | .dar => 19#10
      | .dsisr => 18#10) →
    decodeCpu (31#6 ++ r ++ number.extractLsb' 0 5 ++ number.extractLsb' 5 5 ++ 339#10 ++ 0#1) = some (.mfsprSave r n) ∧
    decodeCpu (31#6 ++ r ++ number.extractLsb' 0 5 ++ number.extractLsb' 5 5 ++ 467#10 ++ 0#1) = some (.mtsprSave n r) ∧
    (s.cpu.msr.pr = false →
      (∃ t, execCpu (.mfsprSave r n) s = .next t ∧
        readGpr r t = (match n with
          | .srr0 => s.cpu.srr0
          | .srr1 => s.cpu.srr1
          | .dar => s.cpu.dar
          | .dsisr => s.cpu.dsisr) ∧
        SameGprsBut r s t ∧ SameExceptionRegs s t ∧ t.dev = s.dev ∧ t.port = s.port ∧ SameModes s t ∧ SameMemory s t ∧
        t.cpu.pc = s.cpu.pc + 4#32 ∧ Reported 0b001#3 s t) ∧
      (∃ t, execCpu (.mtsprSave n r) s = .next t ∧
        t.cpu.srr0 = (if n = .srr0 then readGpr r s else s.cpu.srr0) ∧
        t.cpu.srr1 = (if n = .srr1 then readGpr r s else s.cpu.srr1) ∧
        t.cpu.dar = (if n = .dar then readGpr r s else s.cpu.dar) ∧
        t.cpu.dsisr = (if n = .dsisr then readGpr r s else s.cpu.dsisr) ∧
        t.cpu.msr = s.cpu.msr ∧ SameGprs s t ∧ t.dev = s.dev ∧ t.port = s.port ∧ SameModes s t ∧ SameMemory s t ∧
        t.cpu.pc = s.cpu.pc + 4#32 ∧ Reported 0b001#3 s t)) ∧
    (s.cpu.msr.pr = true → ∀ (i : CpuInstr) (toGpr : Bool), i = (if toGpr then .mfsprSave r n else .mtsprSave n r) →
      ∃ t, execCpu i s = .next t ∧ t.dev = { s.dev with ecr := s.dev.ecr ||| 0x00800000#32 } ∧ SameMemory s t ∧
        (∀ q, (s.mode.dm && toGpr && q == r) = false → readGpr q t = readGpr q s) ∧
        ((s.mode.dm && !toGpr && n == .dar) = false → t.cpu.dar = s.cpu.dar) ∧
        ((s.mode.dm && !toGpr && n == .dsisr) = false → t.cpu.dsisr = s.cpu.dsisr) ∧
        (if s.mode.dm then t.port.pInt = true ∧ t.mode = s.mode ∧ t.cpu.pc = s.cpu.pc ∧ t.cpu.msr = s.cpu.msr ∧
           t.cpu.srr0 = s.cpu.srr0 ∧ t.cpu.srr1 = s.cpu.srr1
         else if s.dev.der.getMsbD 8 && s.mode.dme then
           t.mode.dm = true ∧ t.mode.frz = true ∧ t.cpu.msr.pr = false ∧ t.cpu.msr.ee = false ∧
             t.cpu.wait = CpuWait.instr
         else
           t.mode.dm = false ∧ t.cpu.pc = Config.vectorWord .program s.cpu.msr ++ 0#2 ∧ t.cpu.msr.ri = false ∧
             t.cpu.msr.ee = false))

/-- For every displacement: EA = (x[rA] + d) mod 2^32; the four bytes from EA on read as the bytes of the old
x[rS], most significant first; every other byte reads as before; x[rA] = EA; every other general register,
every special register, the port and the modes are unchanged; the pc advances by 4; one bus cycle (EA,
write, 4 bytes) is presented to the comparators, whose value carries the byte for the address EA + k on lane
(EA + k) mod 4. That an unaligned store is one such cycle is the model's choice (log 26, N39), as are the
wrap of the bytes at 2^32 (log 44) and r0 as an ordinary base (log 3).
(derived: R417 R103 R106 R420) -/
def Obligations.StwuStoresAndUpdates : Prop :=
  ∀ (rs ra : Reg) (d : Int) (s : State),
    ∃ t, exec (.stwu rs d ra) s = .next t ∧
      (∀ a : Word, a = readGpr ra s + BitVec.ofInt 32 d →
        memRead a.toNat t.mem = some ((readGpr rs s).extractLsb' 24 8) ∧
        memRead (a + 1#32).toNat t.mem = some ((readGpr rs s).extractLsb' 16 8) ∧
        memRead (a + 2#32).toNat t.mem = some ((readGpr rs s).extractLsb' 8 8) ∧
        memRead (a + 3#32).toNat t.mem = some ((readGpr rs s).extractLsb' 0 8) ∧
        SameMemoryBut a s t ∧ readGpr ra t = a ∧
        t.cpu.flight.cycles = s.cpu.flight.cycles ++ [⟨a, true, 4, busWord a (readGpr rs s)⟩] ∧
        (∀ k, k < 4 → lane (busWord a (readGpr rs s)) ((a.toNat + k) % 4) = lane (readGpr rs s) k)) ∧
      SameGprsBut ra s t ∧ t.dev = s.dev ∧ t.port = s.port ∧ SameExceptionRegs s t ∧ SameModes s t ∧
      t.cpu.pc = s.cpu.pc + 4#32 ∧ Reported 0b001#3 s t

/-- With ready asserted, each of the 37 transmissions completes and appends one output frame of its own length:
a 0, the status by the priority P_VALID (00), P_SEQ (01), P_INT (10), none (11), and the data bits: for 00
those of the shift register, else freeze, 1 - DLIP and ones (a short frame the first seven of them). Outside
debug mode only the null and the sequencing error status occur, whatever P_VALID and P_INT hold: R148's
reading, log 42. That the flags count as they stand at the transmission, also where one was set after ready
was asserted, is the model's choice (R330, log 54).
(derived: R330 R331 R332 R335 R336 R147 R148 R149) -/
def Obligations.OutputFrameOfEveryTransmission : Prop :=
  ∀ (s : State) (i : Instr), (s.mode.dm = false ∨ s.cpu.wait ≠ CpuWait.none) → isTransmission i = true →
    ∃ (t : State) (f : Frame), exec i s = .next t ∧ t.port.dsdo = s.port.dsdo ++ [f] ∧
      ∃ (status : BitVec 2) (data : Word),
        status = (if s.mode.dm && s.port.pValid then 0b00#2 else if s.port.pSeq then 0b01#2
          else if s.mode.dm && s.port.pInt then 0b10#2 else 0b11#2) ∧
        data = (if s.mode.dm && s.port.pValid then s.port.shift.extractLsb' 0 32
          else BitVec.ofBool s.mode.frz ++ BitVec.ofBool (!s.port.dlip) ++ 0x3FFFFFFF#30) ∧
        f = (match encode i with
          | .dp35 _ => .long (0#1 ++ status ++ data)
          | _ => .short (0#1 ++ status ++ data.extractLsb' 25 7))

/-- With ready asserted and the status sequencing error (P_VALID not set in debug mode, P_SEQ set), or CPU
interrupt in debug mode (P_SEQ not set, P_INT set), each of the 37 transmissions completes without any
effect: the CPU, the development support registers, the modes, the TECR, the download state and memory are
unchanged, and the reported flag alone is cleared. That the flags count as they stand at the transmission,
also where an NMI or a machine check set P_INT after ready was asserted, is the model's choice (R330, log
54, DESIGN CHOICE, unsafe). That outside debug mode a P_VALID or P_INT left from debug mode is not shown, so
that P_SEQ decides there, and is kept, is its reading of R148 (log 42, DEDUCED, unsafe).
(derived: R333 R330 R336 R354 R355) -/
def Obligations.InputIgnoredUnderErrorStatus : Prop :=
  ∀ (s : State) (i : Instr), (s.mode.dm = false ∨ s.cpu.wait ≠ CpuWait.none) → isTransmission i = true →
    (s.mode.dm = false ∨ s.port.pValid = false) →
    (s.port.pSeq = true ∨ (s.mode.dm = true ∧ s.port.pInt = true)) →
    ∃ t, exec i s = .next t ∧ t.cpu = s.cpu ∧ t.dev = s.dev ∧ t.mode = s.mode ∧ t.ext = s.ext ∧ SameMemory s t ∧ SamePortControl s t ∧
      t.port.pValid = s.port.pValid ∧ t.port.pSeq = false ∧
      t.port.pInt = (if s.port.pSeq then s.port.pInt else false)

/-- In debug mode with the CPU waiting for neither an instruction nor data, each of the 37 transmissions ends in
the refusal portNotReady, as the spec says the model refuses it.
(derived: R326 R328 U14) -/
def Obligations.NotReadyRefusesEveryTransmission : Prop :=
  ∀ (s : State) (i : Instr), s.mode.dm = true → s.cpu.wait = CpuWait.none → isTransmission i = true →
    exec i s = .refused .portNotReady

/-- In debug mode with no error status pending. With the CPU waiting for an instruction, INSTR(w) completes: the
word is delivered, the CPU waits no longer, and the registers, the modes, the TECR, the download state and
memory are unchanged. With the CPU waiting for data for rD and no download in progress, DATA(v) completes:
the CPU goes on to its next fetch and waits for an instruction, and every other register, the modes, the
TECR and memory are unchanged; x[rD] = v unless the read is traced. With the download in progress, its end
requested, the CPU in the loop's mfspr r31,DPDR, DATA(v) completes: DLIP = 0, the CPU waits for an
instruction of the tool, and no byte of memory and no other register changes; x[31] = v unless the read is
traced. The read is traced with MSR.SE = 1 and never with SE = 0 and BE = 0: ECR.TR and P_INT are then set,
and the destination is open (R460). That the event comes with the data word, and what branch trace mode
traces, is the model's choice (log 29).
(derived: R350 R351 R352 R328 R363 R444 R460) -/
def Obligations.TransmissionsTheCpuWaitsFor : Prop :=
  (∀ (s : State) (w : Word), s.mode.dm = true → s.cpu.wait = CpuWait.instr → NoErrorStatus s →
      ∃ t, exec (.instr w) s = .next t ∧ t.cpu = { s.cpu with dpir := some w, wait := CpuWait.none } ∧
        t.dev = s.dev ∧ t.mode = s.mode ∧ t.ext = s.ext ∧ SamePortControl s t ∧ SameMemory s t) ∧
  (∀ (s : State) (rd : Reg) (v : Word), s.mode.dm = true → s.cpu.wait = .data rd → NoErrorStatus s →
      s.port.dlip = false →
      ∃ t, exec (.data v) s = .next t ∧ SameGprsBut rd s t ∧ t.cpu.wait = CpuWait.instr ∧
        t.cpu.pc = s.cpu.pc ∧ t.cpu.dpir = s.cpu.dpir ∧ SameExceptionRegs s t ∧
        t.mode = s.mode ∧ t.ext = s.ext ∧ SamePortControl s t ∧ SameMemory s t ∧
        (s.cpu.msr.se = false → s.cpu.msr.be = false → readGpr rd t = v ∧ t.dev = s.dev) ∧
        (s.cpu.msr.se = true → t.dev = { s.dev with ecr := s.dev.ecr ||| 0x00020000#32 } ∧ t.port.pInt = true) ∧
        ((readGpr rd t = v ∧ t.dev = s.dev) ∨
          (t.dev = { s.dev with ecr := s.dev.ecr ||| 0x00020000#32 } ∧ t.port.pInt = true))) ∧
  (∀ (s : State) (v : Word), s.mode.dm = true → s.cpu.wait = .data 31#5 → NoErrorStatus s → s.port.dlip = true →
      s.port.dlEnd = true →
      ∃ t, exec (.data v) s = .next t ∧ SameGprsBut 31#5 s t ∧ t.port.dlip = false ∧
        t.cpu.wait = CpuWait.instr ∧ t.cpu.dpir = s.cpu.dpir ∧ t.mode = s.mode ∧
        SameExceptionRegs s t ∧ SameMemory s t ∧
        (s.cpu.msr.se = false → s.cpu.msr.be = false → readGpr 31#5 t = v ∧ t.dev = s.dev) ∧
        (s.cpu.msr.se = true → t.dev = { s.dev with ecr := s.dev.ecr ||| 0x00020000#32 } ∧ t.port.pInt = true) ∧
        ((readGpr 31#5 t = v ∧ t.dev = s.dev) ∨
          (t.dev = { s.dev with ecr := s.dev.ecr ||| 0x00020000#32 } ∧ t.port.pInt = true)))

/-- In debug mode with the CPU waiting for an instruction and no error status pending, DATA(v) completes: P_SEQ
is set, the fetch stays outstanding with ready asserted again, and v changes nothing: the registers, the
modes, the TECR and memory are unchanged. That the fetch stays outstanding is the spec's own choice (D24).
With DM = 0, INSTR and DATA complete: the frame is discarded, P_SEQ is 1 afterwards unless a sequencing
error was being shifted out, and the CPU, the registers, the modes, the TECR and memory are unchanged. In
debug mode with the CPU waiting for data for rD and no error status pending, INSTR(w) completes: P_SEQ and
P_INT are set, the ECR gains the machine check or the data protection error bit and nothing else, no general
register but rD changes, MSR, SRR0, SRR1, the modes, the TECR and memory are unchanged, and with no download
in progress the CPU waits for an instruction. That rD then holds an open value is the model's (log 36), and
the candidates for the bit are the spec's inference.
(derived: R354 R328 R336 R327 R333 R355 R356 R460) -/
def Obligations.MisplacedTransmissionsAreSequencingErrors : Prop :=
  (∀ (s : State) (v : Word), s.mode.dm = true → s.cpu.wait = CpuWait.instr → NoErrorStatus s →
      ∃ t, exec (.data v) s = .next t ∧ t.port.pSeq = true ∧ t.cpu.wait = CpuWait.instr ∧ portReady t = true ∧
        t.cpu = s.cpu ∧ t.dev = s.dev ∧ t.mode = s.mode ∧ t.ext = s.ext ∧ SameMemory s t ∧ SamePortControl s t) ∧
  (∀ (s : State) (w : Word) (i : Instr), i = .instr w ∨ i = .data w → s.mode.dm = false →
      ∃ t, exec i s = .next t ∧ t.port.pSeq = !s.port.pSeq ∧ t.cpu = s.cpu ∧ t.dev = s.dev ∧ t.mode = s.mode ∧ t.ext = s.ext ∧ SameMemory s t ∧ SamePortControl s t) ∧
  (∀ (s : State) (rd : Reg) (w : Word), s.mode.dm = true → s.cpu.wait = .data rd → NoErrorStatus s →
      ∃ t, exec (.instr w) s = .next t ∧ t.port.pSeq = true ∧ t.port.pInt = true ∧
        (t.dev = { s.dev with ecr := s.dev.ecr ||| 0x10000000#32 } ∨
          t.dev = { s.dev with ecr := s.dev.ecr ||| 0x00000400#32 }) ∧
        SameGprsBut rd s t ∧ t.cpu.msr = s.cpu.msr ∧ t.cpu.srr0 = s.cpu.srr0 ∧ t.cpu.srr1 = s.cpu.srr1 ∧
        t.mode = s.mode ∧ t.port.tecr = s.port.tecr ∧ SameMemory s t ∧
        (s.port.dlip = false → t.cpu.wait = CpuWait.instr))

/-- With ready asserted and no error status pending, TECR(d) completes: IW0 to IW3, LW0, LW1, VSYNC hold the
bits of d in the order of the open parameter TECR_LAYOUT (log 18), MBRK and NMBRK are unchanged. In debug
mode a change of VSYNC is remembered. Outside it a change is reported as 011 with the next fetch marked, but
a negation while a marked address is still to be shown is held back, and so is a change that finds another
one waiting or the fetch marked by an earlier report still to be made, to be reported after it (log 51). An
unchanged VSYNC reports nothing. The CPU, the registers, the modes, the download state and memory are
unchanged.
(derived: R340 R143 R185 R196 R195 R197 R198) -/
def Obligations.TecrLoads : Prop :=
  ∀ (s : State) (d : BitVec 7) (v : Bool), (s.mode.dm = false ∨ s.cpu.wait ≠ CpuWait.none) → NoErrorStatus s →
    v = d.getMsbD (Config.tecrLayout 6) →
    ∃ t, exec (.tecr d) s = .next t ∧
      t.port.tecr = ⟨d.getMsbD (Config.tecrLayout 0), d.getMsbD (Config.tecrLayout 1), d.getMsbD (Config.tecrLayout 2),
        d.getMsbD (Config.tecrLayout 3), d.getMsbD (Config.tecrLayout 4), d.getMsbD (Config.tecrLayout 5), v,
        s.port.tecr.mbrk, s.port.tecr.nmbrk⟩ ∧
      t.trace.vsyncChanged = (s.trace.vsyncChanged || (s.mode.dm && s.port.tecr.vsync != v)) ∧
      (if s.port.tecr.vsync = v ∨ s.mode.dm = true then
        t.trace.events = s.trace.events ∧ t.trace.mark = s.trace.mark ∧ t.trace.vsyncHeld = s.trace.vsyncHeld
       else if s.trace.vsyncHeld ≠ 0 ∨ s.trace.mark.vsync = true ∨ (v = false ∧ s.trace.mark.ptc = true) then
        t.trace.events = s.trace.events ∧ t.trace.mark = s.trace.mark ∧ t.trace.vsyncHeld = s.trace.vsyncHeld + 1
       else
        t.trace.events = s.trace.events ++ [.typeCode 0b011#3] ∧ t.trace.mark.ptc = true ∧ t.trace.mark.vsync = true ∧
          t.trace.vsyncHeld = 0) ∧
      t.cpu = s.cpu ∧ t.dev = s.dev ∧ t.mode = s.mode ∧ t.ext = s.ext ∧ SameMemory s t ∧ t.port.dlip = s.port.dlip ∧
      t.port.dlEnd = s.port.dlEnd ∧ t.port.dlStore = s.port.dlStore

/-- With ready asserted, CMD_NOP and each of the 28 reserved commands completes and changes nothing but the
serial exchange itself: the CPU, the registers, the modes, the TECR, the download state, the trace and
memory are unchanged, and one output frame is appended.
(derived: R342 R345 R145 U9) -/
def Obligations.NopCommandsDoNothing : Prop :=
  ∀ (s : State) (x : BitVec 2) (y : BitVec 1) (i : Instr), (s.mode.dm = false ∨ s.cpu.wait ≠ CpuWait.none) → i ∈ nopCommands x y →
    ∃ t, exec i s = .next t ∧ t.cpu = s.cpu ∧ t.dev = s.dev ∧ t.mode = s.mode ∧ t.ext = s.ext ∧ SameMemory s t ∧ SamePortControl s t ∧ t.trace = s.trace ∧
      t.port.dsdo.length = s.port.dsdo.length + 1

/-- With ready asserted and no error status pending, both commands complete: ICTRL, LCTRL1, LCTRL2 and both
counter sources are 0, DER is 0x2002000F, the ECR is 0, or 1 with debug mode entered if DSCK is held; CMPA
to CMPH, BAR, the counter values and memory are unaffected; DME is the sampled level; the TECR and the
pending flags are 0; all fetches are shown from then on (ISCT_SER = 000 in force). That both kinds do the
same, and the port's values, are the spec's own choices (log 5, log 6).
(derived: R343 R344 R520 R521 R523 R524) -/
def Obligations.ResetCommandsReset : Prop :=
  ∀ (s : State) (x : BitVec 2) (i : Instr), (s.mode.dm = false ∨ s.cpu.wait ≠ CpuWait.none) → NoErrorStatus s →
    i = .cmdHreset x ∨ i = .cmdSreset x →
    ∃ t, exec i s = .next t ∧
      t.dev.ictrl = 0#32 ∧ t.dev.lctrl1 = 0#32 ∧ t.dev.lctrl2 = 0#32 ∧ t.dev.der = 0x2002000F#32 ∧
      t.dev.counta = ⟨s.dev.counta.cntv, 0#2⟩ ∧ t.dev.countb = ⟨s.dev.countb.cntv, 0#2⟩ ∧
      t.dev.cmpa = s.dev.cmpa ∧ t.dev.cmpb = s.dev.cmpb ∧ t.dev.cmpc = s.dev.cmpc ∧ t.dev.cmpd = s.dev.cmpd ∧
      t.dev.cmpe = s.dev.cmpe ∧ t.dev.cmpf = s.dev.cmpf ∧ t.dev.cmpg = s.dev.cmpg ∧ t.dev.cmph = s.dev.cmph ∧
      t.dev.bar = s.dev.bar ∧ SameMemory s t ∧ t.mode.dme = s.ext.pins.dsckEnable ∧
      t.mode.clkMode = s.ext.pins.dsdiClock ∧ t.port.tecr = State.reset.port.tecr ∧ t.port.dlip = false ∧
      t.port.pValid = false ∧ t.port.pSeq = false ∧ t.port.pInt = false ∧ t.trace.isct = 0#3 ∧
      (if s.ext.pins.dsckEnable && s.ext.pins.dsckHeld then
        t.dev.ecr = 0x00000001#32 ∧ t.mode.dm = true ∧ t.mode.frz = true ∧ t.cpu.msr.pr = false ∧
          t.cpu.msr.ee = false ∧ t.cpu.wait = CpuWait.instr
       else
        t.dev.ecr = 0#32 ∧ t.mode.dm = false ∧ t.mode.frz = false ∧ t.cpu.pc = Config.vecReset)

/-- With ready asserted and no error status pending, CMD_BRK(n, m) completes: NMBRK = n, MBRK = m, the trap
enables and VSYNC are unchanged, and so are the CPU, the registers, the modes, the download state and
memory.
(stated: R346) -/
def Obligations.BreakCommandSetsBothRequests : Prop :=
  ∀ (s : State) (n m : Bool), (s.mode.dm = false ∨ s.cpu.wait ≠ CpuWait.none) → NoErrorStatus s →
    ∃ t, exec (.cmdBrk n m) s = .next t ∧
      t.port.tecr = { s.port.tecr with nmbrk := n, mbrk := m } ∧ t.cpu = s.cpu ∧ t.dev = s.dev ∧ t.mode = s.mode ∧ t.ext = s.ext ∧ SameMemory s t ∧
      t.port.dlip = s.port.dlip ∧ t.port.dlEnd = s.port.dlEnd ∧ t.port.dlStore = s.port.dlStore ∧
      t.trace = s.trace

/-- With ready asserted and no error status pending: CMD_START_DOWNLOAD completes with DLIP set in debug mode,
no end requested and the mfspr next in the loop, a CPU that waited for an instruction getting that mfspr
r31,DPDR from the port, after which the stwu is next; it is a no-op outside debug mode or while in progress,
a pending end request and the place in the loop staying as they are; CMD_END_DOWNLOAD completes with the end
remembered while in progress in debug mode and is a no-op otherwise. Registers, modes, TECR and memory are
unchanged. The no-ops are the spec's own choice (log 37).
(derived: R361 R363 R364) -/
def Obligations.DownloadCommands : Prop :=
  ∀ s : State, (s.mode.dm = false ∨ s.cpu.wait ≠ CpuWait.none) → NoErrorStatus s →
    (∃ t, exec .cmdStartDownload s = .next t ∧ t.port.tecr = s.port.tecr ∧ t.dev = s.dev ∧ t.mode = s.mode ∧
      t.ext = s.ext ∧ SameGprs s t ∧ SameExceptionRegs s t ∧ t.cpu.pc = s.cpu.pc ∧ SameMemory s t ∧
      t.port.dlip = (s.port.dlip || s.mode.dm) ∧ t.trace = s.trace ∧
      (if s.mode.dm && !s.port.dlip then
        t.port.dlEnd = false ∧ t.port.dlStore = (s.cpu.wait == CpuWait.instr)
       else t.port.dlEnd = s.port.dlEnd ∧ t.port.dlStore = s.port.dlStore) ∧
      (if s.mode.dm && !s.port.dlip && s.cpu.wait == CpuWait.instr then
        t.cpu.wait = CpuWait.none ∧ t.cpu.dpir = some 0x7FF69AA6#32
       else t.cpu.wait = s.cpu.wait ∧ t.cpu.dpir = s.cpu.dpir)) ∧
    (∃ t, exec .cmdEndDownload s = .next t ∧ t.cpu = s.cpu ∧ t.dev = s.dev ∧ t.mode = s.mode ∧ t.ext = s.ext ∧ SameMemory s t ∧ t.port.tecr = s.port.tecr ∧
      t.port.dlip = s.port.dlip ∧ t.port.dlStore = s.port.dlStore ∧
      t.port.dlEnd = (s.port.dlEnd || (s.mode.dm && s.port.dlip)))

/-- In debug mode with the download in progress, the CPU in the loop's mfspr r31,DPDR, no error status and no
end requested, no single step or branch trace and nothing else to happen: the transmission DATA(v) and two
steps of the CPU store v big-endian at x[30] + 4, leave x[30] advanced by 4 and x[31] = v, change no other
register and no other byte, and the CPU again waits for data for r31. For x[30] + 4 no multiple of 4, that
the store is performed there as one bus cycle is the model's choice (log 26, N39), as is the wrap of the
stored bytes at 2^32 (log 44).
(derived: R361 R362 R103 R417) -/
def Obligations.FastDownloadStoresWord : Prop :=
  ∀ (s : State) (v : Word), s.mode.dm = true → s.cpu.wait = .data 31#5 → NoErrorStatus s → s.port.dlip = true →
    s.port.dlEnd = false → s.port.dlStore = true → s.ext.inputs = [.frame (.long (0b101#3 ++ v))] →
    s.ext.nmi = false → s.ext.machineCheck = false → s.ext.cpuExc = none → s.cpu.checkStop = false →
    s.cpu.msr.se = false → s.cpu.msr.be = false →
    s.cpu.msr.pr = false →
    ∃ t, RunsTo 3 s t ∧ memReadWord (readGpr 30#5 s + 4#32) t.mem = some v ∧
      SameMemoryBut (readGpr 30#5 s + 4#32) s t ∧ readGpr 30#5 t = readGpr 30#5 s + 4#32 ∧
      readGpr 31#5 t = v ∧ (∀ q, q ≠ 30#5 → q ≠ 31#5 → readGpr q t = readGpr q s) ∧ t.dev = s.dev ∧
      t.cpu.wait = .data 31#5 ∧ t.port.dlip = true ∧ t.port.dlStore = true ∧ t.mode = s.mode

/-- For every event but check stop (Table 21-9) raised outside debug mode with its DER bit clear or DME = 0: its
ECR bit is set and no other development support register changes; FRZ is set if the DER bit is set; the pc
is the event's vector; RI, EE and PR are 0; SRR0 is the restart address for breakpoints and asynchronous
events; the bits of SRR1 that hold EE, PR, ME, SE, BE and RI are those of the old MSR, wherever SRR1 holds
them; 100 is reported and the next fetch marked; registers, port and memory are unchanged. SRR0 and SRR1 are
the spec's own choice (D7, log 12), PR = 0 is log 13, the vector is an open parameter (log 11).
(derived: R450 R451 R481 R192 R441 R488 D7) -/
def Obligations.RegularExceptionTaken : Prop :=
  ∀ (e : Event) (resume : Word) (s : State), e ≠ .checkStop → s.mode.dm = false →
    (s.dev.der &&& eventMask e = 0#32 ∨ s.mode.dme = false) →
    (raise e resume s).dev = { s.dev with ecr := s.dev.ecr ||| eventMask e } ∧
    (raise e resume s).mode = { s.mode with frz := s.mode.frz || s.dev.der &&& eventMask e != 0#32 } ∧
    (raise e resume s).cpu.pc = Config.vectorWord e s.cpu.msr ++ 0#2 ∧
    (raise e resume s).cpu.msr.ri = false ∧ (raise e resume s).cpu.msr.ee = false ∧
    (raise e resume s).cpu.msr.pr = false ∧
    (e ∈ [.instrBreak, .loadStoreBreak, .extBreak, .devPortInt, .nmi, .extInt, .decrementer] →
      (raise e resume s).cpu.srr0 = resume) ∧
    srr1Bit (raise e resume s).cpu.srr1 16 = s.cpu.msr.ee ∧ srr1Bit (raise e resume s).cpu.srr1 17 = s.cpu.msr.pr ∧
    srr1Bit (raise e resume s).cpu.srr1 19 = s.cpu.msr.me ∧ srr1Bit (raise e resume s).cpu.srr1 21 = s.cpu.msr.se ∧
    srr1Bit (raise e resume s).cpu.srr1 22 = s.cpu.msr.be ∧ srr1Bit (raise e resume s).cpu.srr1 30 = s.cpu.msr.ri ∧
    (raise e resume s).trace.events = s.trace.events ++ [.typeCode 0b100#3] ∧
    (raise e resume s).trace.mark.ptc = true ∧ SameGprs s (raise e resume s) ∧
    (raise e resume s).port = s.port ∧ SameMemory s (raise e resume s)

/-- For every event raised outside debug mode with its DER bit set and DME = 1: its ECR bit is set and no other
development support register changes; DM = 1 and FRZ = 1; PR and EE are 0; SRR0 is the restart address for
breakpoints and asynchronous events, and the bits of SRR1 that hold EE, PR, ME, SE, BE and RI are those of
the old MSR, wherever SRR1 holds them; the CPU waits for an instruction of the port; 100 and one marked show
cycle are reported; general registers, port and memory are unchanged. SRR0 and SRR1 are the spec's own
choice (D7, log 12); that the cycle is shown whatever ISCTL is, is the model's (log 52).
(derived: R450 R452 R481 R195 R441 D7) -/
def Obligations.DebugModeEntered : Prop :=
  ∀ (e : Event) (resume : Word) (s : State), s.mode.dm = false → s.dev.der &&& eventMask e ≠ 0#32 →
    s.mode.dme = true →
    (raise e resume s).dev = { s.dev with ecr := s.dev.ecr ||| eventMask e } ∧
    (raise e resume s).mode = { s.mode with dm := true, frz := true } ∧
    (raise e resume s).cpu.msr.pr = false ∧ (raise e resume s).cpu.msr.ee = false ∧
    (raise e resume s).cpu.wait = CpuWait.instr ∧
    (e ∈ [.instrBreak, .loadStoreBreak, .extBreak, .devPortInt, .nmi, .extInt, .decrementer] →
      (raise e resume s).cpu.srr0 = resume) ∧
    srr1Bit (raise e resume s).cpu.srr1 16 = s.cpu.msr.ee ∧ srr1Bit (raise e resume s).cpu.srr1 17 = s.cpu.msr.pr ∧
    srr1Bit (raise e resume s).cpu.srr1 19 = s.cpu.msr.me ∧ srr1Bit (raise e resume s).cpu.srr1 21 = s.cpu.msr.se ∧
    srr1Bit (raise e resume s).cpu.srr1 22 = s.cpu.msr.be ∧ srr1Bit (raise e resume s).cpu.srr1 30 = s.cpu.msr.ri ∧
    (∃ a, (raise e resume s).trace.events = s.trace.events ++ [.typeCode 0b100#3, .showCycle a true]) ∧
    SameGprs s (raise e resume s) ∧ (raise e resume s).port = s.port ∧ SameMemory s (raise e resume s)

/-- Each of the eighteen events has the ECR and DER mask of R34 and R441. For every event raised in debug mode:
its ECR bit and P_INT are set; MSR, SRR0, SRR1, DM, FRZ, the pc, the general registers, the rest of the port
and memory are unchanged.
(derived: R34 R441 R460 R356 R51) -/
def Obligations.EventMasksAndRecordingInDebugMode : Prop :=
  eventMask .nmi = 0x40000000#32 ∧ eventMask .checkStop = 0x20000000#32 ∧
  eventMask .machineCheck = 0x10000000#32 ∧ eventMask .itlbError = 0x00001000#32 ∧
  eventMask .dtlbError = 0x00000400#32 ∧ eventMask .extInt = 0x02000000#32 ∧
  eventMask .alignment = 0x01000000#32 ∧ eventMask .program = 0x00800000#32 ∧
  eventMask .fpUnavail = 0x00400000#32 ∧ eventMask .fpAssist = 0x00010000#32 ∧
  eventMask .decrementer = 0x00200000#32 ∧ eventMask .sysCall = 0x00040000#32 ∧
  eventMask .trace = 0x00020000#32 ∧ eventMask .softEmul = 0x00004000#32 ∧
  eventMask .instrBreak = 0x00000004#32 ∧ eventMask .loadStoreBreak = 0x00000008#32 ∧
  eventMask .extBreak = 0x00000002#32 ∧ eventMask .devPortInt = 0x00000001#32 ∧
  (∀ (e : Event) (resume : Word) (s : State), s.mode.dm = true →
      (raise e resume s).dev = { s.dev with ecr := s.dev.ecr ||| eventMask e } ∧
      (raise e resume s).port = { s.port with pInt := true } ∧ (raise e resume s).mode = s.mode ∧
      SameExceptionRegs s (raise e resume s) ∧ (raise e resume s).cpu.pc = s.cpu.pc ∧
      SameGprs s (raise e resume s) ∧ SameMemory s (raise e resume s))

/-- Outside debug mode a machine check condition, asynchronous or taken by an instruction, follows Table 21-9:
with ME = 0 the CHSTP bit is set and, with DME = 1 and CHSTPE = 1, debug mode is entered, else the check
stop state; with ME = 1 the MCE bit is set and, with DME = 1 and MCEE = 1, debug mode is entered, else the
machine check interrupt is taken. General registers and memory are unchanged; of an asynchronous one SRR0 is
the address of the next instruction (D7, log 12) unless the CPU stops. As a step: an asynchronous condition
that waits alone, no input being left, is taken so by the next CPU step, before the instruction at the pc,
and waits no longer. In debug mode it is recorded at once: CHSTP (N26, log 33) or MCE and P_INT are set, and
nothing else changes but DAR and DSISR, whose values are open (log 33). The condition is latched until it is
recognised, and is taken before the instruction at the pc, by the model's choice (log 15, log 49).
(derived: R455 R441 R442 R460 D7 N26) -/
def Obligations.MachineCheckTable : Prop :=
  ∀ (async : Bool) (resume : Word) (s : State) (rest : List Input),
    (s.mode.dm = false → s.cpu.checkStop = false →
      SameGprs s (raiseMachineCheck async resume s) ∧ SameMemory s (raiseMachineCheck async resume s) ∧
      (async = true → (raiseMachineCheck async resume s).cpu.checkStop = false →
        (raiseMachineCheck async resume s).cpu.srr0 = resume) ∧
      (if s.cpu.msr.me = false then
        (raiseMachineCheck async resume s).dev = { s.dev with ecr := s.dev.ecr ||| 0x20000000#32 } ∧
        (if s.mode.dme && s.dev.der.getMsbD 2 then
          (raiseMachineCheck async resume s).mode.dm = true ∧ (raiseMachineCheck async resume s).cpu.checkStop = false
         else
          (raiseMachineCheck async resume s).mode.dm = false ∧ (raiseMachineCheck async resume s).cpu.checkStop = true)
       else
        (raiseMachineCheck async resume s).dev = { s.dev with ecr := s.dev.ecr ||| 0x10000000#32 } ∧
        (raiseMachineCheck async resume s).cpu.checkStop = false ∧
        (if s.mode.dme && s.dev.der.getMsbD 3 then (raiseMachineCheck async resume s).mode.dm = true
         else (raiseMachineCheck async resume s).mode.dm = false ∧
          (raiseMachineCheck async resume s).cpu.pc = Config.vectorWord .machineCheck s.cpu.msr ++ 0#2))) ∧
    (s.mode.dm = false → s.cpu.checkStop = false → s.ext.inputs = [] → s.ext.machineCheck = true → s.ext.nmi = false →
      (s.ext.extInt && s.cpu.msr.ee) = false → (s.ext.decr && s.cpu.msr.ee) = false → s.port.tecr.nmbrk = false →
      ((s.port.tecr.mbrk || s.ext.moduleBrk) && s.cpu.msr.ri) = false →
      ∃ t, step s = .next t ∧ t.ext.machineCheck = false ∧ SameGprs s t ∧ SameMemory s t ∧
        (∀ n : Nat, n = (if s.cpu.msr.me then 3 else 2) →
          t.dev = { s.dev with ecr := s.dev.ecr ||| (0x80000000#32 >>> n) } ∧
          t.mode.dm = (s.dev.der.getMsbD n && s.mode.dme) ∧
          t.cpu.checkStop = (decide (n = 2) && !(s.dev.der.getMsbD n && s.mode.dme))) ∧
        (t.cpu.checkStop = false → t.cpu.srr0 = s.cpu.pc)) ∧
    (s.ext.inputs = .machineCheck :: rest → s.mode.dm = true →
      ∃ t, step s = .next t ∧
        t.dev = { s.dev with ecr := s.dev.ecr ||| (if s.cpu.msr.me then 0x10000000#32 else 0x20000000#32) } ∧
        t.port = { s.port with pInt := true } ∧ t.cpu = { s.cpu with dar := t.cpu.dar, dsisr := t.cpu.dsisr } ∧
        t.mode = s.mode ∧ t.trace = s.trace ∧ t.mem = s.mem)

/-- In the check stop state with no input left the step is the fault checkStopped; and with any input that is
not a reset, a step that answers next stays in the check stop state with the general registers, the pc, the
exception registers and memory unchanged.
(derived: R455 R491 U12) -/
def Obligations.CheckStopIsStuck : Prop :=
  (∀ s : State, s.cpu.checkStop = true → s.ext.inputs = [] → step s = .fault .checkStopped) ∧
  (∀ s t : State, s.cpu.checkStop = true → s.mode.dm = false → ¬ResetNext s → step s = .next t →
    t.cpu.checkStop = true ∧ SameGprs s t ∧ t.cpu.pc = s.cpu.pc ∧ SameExceptionRegs s t ∧ SameMemory s t)

/-- Outside debug mode with no input left and no other request: with NMBRK asserted (not yet taken by a handler)
the step records ECR.DPI, whatever MSR.RI is; with MBRK or a module request asserted, NMBRK negated and
MSR.RI = 1 it records ECR.EBRK; both save the pc in SRR0, leave general registers and memory unchanged, and
enter debug mode exactly if the DER bit and DME are set. With NMBRK negated and MSR.RI = 0 no step records
ECR.EBRK. That a request is taken before the instruction at the pc, also where that has a breakpoint, is the
model's choice (log 15, D11); SRR0 is D7's (log 12).
(derived: R446 R447 R448 R485) -/
def Obligations.BreakRequestsTaken : Prop :=
  ∀ s : State, s.ext.inputs = [] → s.cpu.checkStop = false → s.mode.dm = false → s.ext.nmi = false →
    (s.ext.extInt && s.cpu.msr.ee) = false → (s.ext.decr && s.cpu.msr.ee) = false →
    (s.ext.machineCheck = false → s.port.tecr.nmbrk = true → s.nmbrkTaken = false →
      ((s.port.tecr.mbrk || s.ext.moduleBrk) && s.cpu.msr.ri) = false →
      ∃ t, step s = .next t ∧ t.dev = { s.dev with ecr := s.dev.ecr ||| 0x00000001#32 } ∧
        t.cpu.srr0 = s.cpu.pc ∧ SameGprs s t ∧ SameMemory s t ∧
        t.mode.dm = (s.dev.der.getMsbD 31 && s.mode.dme)) ∧
    (s.ext.machineCheck = false → s.port.tecr.nmbrk = false → (s.port.tecr.mbrk || s.ext.moduleBrk) = true →
      s.cpu.msr.ri = true →
      ∃ t, step s = .next t ∧ t.dev = { s.dev with ecr := s.dev.ecr ||| 0x00000002#32 } ∧
        t.cpu.srr0 = s.cpu.pc ∧ SameGprs s t ∧ SameMemory s t ∧
        t.mode.dm = (s.dev.der.getMsbD 30 && s.mode.dme)) ∧
    (s.port.tecr.nmbrk = false → s.cpu.msr.ri = false → s.dev.ecr.getMsbD 30 = false →
      ∀ t, step s = .next t → t.dev.ecr.getMsbD 30 = false)

/-- Outside debug mode with no input left and no break request recognised: an NMI alone, the external interrupt
alone with EE = 1, and the decrementer alone with EE = 1 are each taken by the next step: ECR.RST, EXTI or
DECE is set, SRR0 holds the pc (D7, log 12), debug mode is entered exactly if the DER bit and DME are set,
and general registers and memory are unchanged; the NMI is then no longer pending. With EE = 0 no step sets
ECR.EXTI or ECR.DECE. In debug mode an NMI is recorded at once: ECR.RST and P_INT are set and nothing else
of the machine changes. The interrupts are taken before the instruction at the pc and the lines are levels
by the model's choice (log 15, log 49).
(derived: R441 R445 R448 R460 R461 D7) -/
def Obligations.InterruptsRecognised : Prop :=
  ∀ (s : State) (rest : List Input),
    (s.ext.inputs = [] → s.cpu.checkStop = false → s.mode.dm = false → s.port.tecr.nmbrk = false →
      ((s.port.tecr.mbrk || s.ext.moduleBrk) && s.cpu.msr.ri) = false →
      (s.ext.nmi = true → s.ext.machineCheck = false → (s.ext.extInt || s.ext.decr) = false →
          ∃ t, step s = .next t ∧ t.dev = { s.dev with ecr := s.dev.ecr ||| 0x40000000#32 } ∧ t.cpu.srr0 = s.cpu.pc ∧
            SameGprs s t ∧ SameMemory s t ∧ t.mode.dm = (s.dev.der.getMsbD 1 && s.mode.dme) ∧ t.ext.nmi = false) ∧
        (s.ext.nmi = false → s.ext.machineCheck = false → s.ext.extInt = true → s.ext.decr = false → s.cpu.msr.ee = true →
          ∃ t, step s = .next t ∧ t.dev = { s.dev with ecr := s.dev.ecr ||| 0x02000000#32 } ∧ t.cpu.srr0 = s.cpu.pc ∧
            SameGprs s t ∧ SameMemory s t ∧ t.mode.dm = (s.dev.der.getMsbD 6 && s.mode.dme)) ∧
        (s.ext.nmi = false → s.ext.machineCheck = false → s.ext.extInt = false → s.ext.decr = true → s.cpu.msr.ee = true →
          ∃ t, step s = .next t ∧ t.dev = { s.dev with ecr := s.dev.ecr ||| 0x00200000#32 } ∧ t.cpu.srr0 = s.cpu.pc ∧
            SameGprs s t ∧ SameMemory s t ∧ t.mode.dm = (s.dev.der.getMsbD 10 && s.mode.dme)) ∧
      (s.cpu.msr.ee = false → ∀ t, step s = .next t →
        (t.dev.ecr.getMsbD 6 = true → s.dev.ecr.getMsbD 6 = true) ∧
        (t.dev.ecr.getMsbD 10 = true → s.dev.ecr.getMsbD 10 = true))) ∧
    (s.ext.inputs = .nmi :: rest → s.mode.dm = true →
      ∃ t, step s = .next t ∧ t.dev = { s.dev with ecr := s.dev.ecr ||| 0x40000000#32 } ∧
        t.port = { s.port with pInt := true } ∧ t.cpu = s.cpu ∧ t.mode = s.mode ∧ t.trace = s.trace ∧ t.mem = s.mem)

/-- Outside debug mode with no input left, no pending event, no instruction breakpoint and both counter sources
00, an exception given for the next instruction is taken in its place, whatever stands at the pc: the ECR
bit of R441 is set and no other development support register changes, the instruction is not executed
(general registers and memory are unchanged) and the exception is used up. Debug mode is entered exactly if
the DER bit and DME are set. A machine check sets MCE with MSR.ME = 1, and with ME = 0 CHSTP, the check stop
state following unless debug mode is entered. DAR and DSISR are unchanged but by the load/store type ones
(alignment, data protection error, machine check), whose values are open. That these are inputs, and which
are of load/store type, is log 33.
(derived: R441 R442 R450 R455) -/
def Obligations.CpuExceptionsAsInputs : Prop :=
  ∀ (s : State) (e : CpuExc), s.ext.inputs = [] → s.cpu.checkStop = false → s.mode.dm = false →
    (s.port.tecr.nmbrk && s.nmbrkTaken) = false → pendingEvents s = [] → s.trace.isct ≠ 0b100#3 →
    s.ext.cpuExc = some e → s.dev.counta.cntc = 0#2 → s.dev.countb.cntc = 0#2 → instrBreakDirect (fetched s) = false →
    ∃ t, step s = .next t ∧ t.ext.cpuExc = none ∧ SameGprs s t ∧ SameMemory s t ∧ t.port = s.port ∧
      t.mode.dme = s.mode.dme ∧
      (e ≠ .alignment → e ≠ .dtlbError → e ≠ .machineCheck → t.cpu.dar = s.cpu.dar ∧ t.cpu.dsisr = s.cpu.dsisr) ∧
      (∀ n : Nat, n = (match e with
          | .machineCheck => if s.cpu.msr.me then 3 else 2
          | .itlbError => 19
          | .dtlbError => 21
          | .alignment => 7
          | .program => 8
          | .fpUnavail => 9
          | .fpAssist => 15
          | .sysCall => 13
          | .softEmul => 17) →
        t.dev = { s.dev with ecr := s.dev.ecr ||| (0x80000000#32 >>> n) } ∧
        t.mode.dm = (s.dev.der.getMsbD n && s.mode.dme) ∧
        t.cpu.checkStop = (decide (n = 2) && !(s.dev.der.getMsbD n && s.mode.dme)))

/-- When the CPU executes an instruction other than rfi outside debug mode with no instruction breakpoint and
both counter sources 00, and the instruction takes no exception: with MSR.SE = 1 the step sets ECR.TR,
leaves the general registers and memory as the instruction left them, and enters debug mode if DER.TRE and
DME are set; with SE = 0 and BE = 0 the step leaves ECR.TR as the instruction left it. DER.TRE is 1 after
reset. That rfi is not traced, and what branch trace mode traces, is the model's choice (log 29). That
MSR.SE and BE as they stood before the instruction decide, also for an mtmsr that changes them, is its
reading (log 29, PRESUMED; log 45, DEDUCED; unsafe). That the trace event comes in the instruction's own
step, so before a request that waits and that an mtmsr has just made recognisable by setting RI or EE, is
its choice (log 15, DESIGN CHOICE, unsafe; D11). The statement is not about rfi, active counters or enabled
instruction breakpoints.
(derived: R444 R441 R450) -/
def Obligations.SingleStepTraceEvent : Prop :=
  State.reset.dev.der.getMsbD 14 = true ∧
  ∀ (s u : State) (w : Word) (i : CpuInstr), Fetches s w i → i ≠ .table .rfi →
    s.dev.counta.cntc = 0#2 → s.dev.countb.cntc = 0#2 → instrBreakDirect (fetched s) = false →
    execCpu i (passBreak (fetched s)) = .next u → u.cpu.flight.excepted = false →
    ∃ t, step s = .next t ∧ SameGprs u t ∧ SameMemory u t ∧
      (s.cpu.msr.se = true → t.dev.ecr.getMsbD 14 = true ∧
        (u.dev.der.getMsbD 14 = true → s.mode.dme = true → t.mode.dm = true)) ∧
      (s.cpu.msr.se = false → s.cpu.msr.be = false → t.dev.ecr.getMsbD 14 = u.dev.ecr.getMsbD 14)

/-- For every compare type, value and fetch address: 0xx never matches, 100 is equal, 101 less than, 110 greater
than, 111 not equal, on 30-bit unsigned numbers. Amatch to Dmatch are this compare of the fetch address with
CMPA to CMPD by ICTRL bits 0:2 (CTA), 3:5 (CTB), 6:8 (CTC), 9:11 (CTD).
(derived: R240 R107 R26) -/
def Obligations.InstructionComparators : Prop :=
  (∀ (ct : BitVec 3) (c a : BitVec 30),
      instrCompare ct c a =
        (ct.getMsbD 0 &&
          match ct.getMsbD 1, ct.getMsbD 2 with
          | false, false => decide (a.toNat = c.toNat)
          | false, true => decide (a.toNat < c.toNat)
          | true, false => decide (c.toNat < a.toNat)
          | true, true => decide (a.toNat ≠ c.toNat))) ∧
  ∀ (a : BitVec 30) (d : Dev),
    matchA a d = instrCompare (specField d.ictrl 0 3) d.cmpa a ∧ matchB a d = instrCompare (specField d.ictrl 3 3) d.cmpb a ∧
    matchC a d = instrCompare (specField d.ictrl 6 3) d.cmpc a ∧ matchD a d = instrCompare (specField d.ictrl 9 3) d.cmpd a

/-- For every fetch address: IWP0 is Amatch with field 10, Amatch and Bmatch with 11; IWP1 Bmatch, Amatch or
Bmatch; IWP2 Cmatch, Cmatch and Dmatch; IWP3 Dmatch, Cmatch or Dmatch; with field 0x none. The fields are
ICTRL bits 12:13, 14:15, 16:17 and 18:19.
(stated: R241) -/
def Obligations.InstructionWatchpoints : Prop :=
  ∀ (a : BitVec 30) (d : Dev),
    (flightOfFetch a d).iwp0 = (d.ictrl.getMsbD 12 && (if d.ictrl.getMsbD 13 then matchA a d && matchB a d else matchA a d)) ∧
    (flightOfFetch a d).iwp1 = (d.ictrl.getMsbD 14 && (if d.ictrl.getMsbD 15 then matchA a d || matchB a d else matchB a d)) ∧
    (flightOfFetch a d).iwp2 = (d.ictrl.getMsbD 16 && (if d.ictrl.getMsbD 17 then matchC a d && matchD a d else matchC a d)) ∧
    (flightOfFetch a d).iwp3 = (d.ictrl.getMsbD 18 && (if d.ictrl.getMsbD 19 then matchC a d || matchD a d else matchD a d))

/-- For every aligned cycle of 1, 2 or 4 bytes: the comparator matches exactly if the direction is selected (0x
any, 10 reads, 11 writes) and the unsigned numbers address / size and value / size are related as the
compare type says. Ematch and Fmatch are this compare with CMPE by LCTRL1 bits 0:2 (CTE) and 12:13 (CRWE),
and with CMPF by bits 3:5 (CTF) and 14:15 (CRWF).
(derived: R264 R108 R28) -/
def Obligations.LoadStoreAddressComparators : Prop :=
  (∀ (ct : BitVec 3) (crw : BitVec 2) (v : Word) (c : BusCycle) (free : Bool),
      c.size = 1 ∨ c.size = 2 ∨ c.size = 4 → c.addr.toNat % c.size = 0 →
      addressCompare ct crw v c free =
        ((!crw.getMsbD 0 || crw.getMsbD 1 == c.write) && ct.getMsbD 0 &&
          match ct.getMsbD 1, ct.getMsbD 2 with
          | false, false => decide (c.addr.toNat / c.size = v.toNat / c.size)
          | false, true => decide (c.addr.toNat / c.size < v.toNat / c.size)
          | true, false => decide (v.toNat / c.size < c.addr.toNat / c.size)
          | true, true => decide (c.addr.toNat / c.size ≠ v.toNat / c.size))) ∧
  ∀ (d : Dev) (c : BusCycle) (free : Bool),
    matchE d c free = addressCompare (specField d.lctrl1 0 3) (specField d.lctrl1 12 2) d.cmpe c free ∧
    matchF d c free = addressCompare (specField d.lctrl1 3 3) (specField d.lctrl1 14 2) d.cmpf c free

/-- For every aligned cycle of 1, 2 or 4 bytes, every lane j and size 11 (bytes), 10 (half-words) or 01 (a
word): with the unit of lane j, the lane does not match if the cycle is smaller than the unit, if some lane
of the unit carries no information of the cycle, or if every byte of the unit is masked; if all lanes are
valid and none is masked, it matches exactly if the compare type is active and the unit of the bus value is
related to the unit of the comparator as the type says, as two's complement numbers in signed mode and
unsigned otherwise. Comparators G and H are CMPG and CMPH with LCTRL1 bits 6:8, 16:17, 20, 22:25 and 9:11,
18:19, 21, 26:29. A partly masked unit on a cycle that carries it is open (D27, log 27).
(derived: R266 R267 R268 R103 R28) -/
def Obligations.DataComparators : Prop :=
  (∀ (p : DataCompare) (c : BusCycle) (free : Nat → Bool) (j u lo : Nat), j < 4 →
    (p.size = 0b11#2 ∧ u = 1) ∨ (p.size = 0b10#2 ∧ u = 2) ∨ (p.size = 0b01#2 ∧ u = 4) → lo = j - j % u →
    c.size = 1 ∨ c.size = 2 ∨ c.size = 4 → c.addr.toNat % c.size = 0 →
    (c.size < u → dataMatch p c free j = false) ∧
    (¬(c.addr.toNat % 4 ≤ lo ∧ lo + u ≤ c.addr.toNat % 4 + c.size) → dataMatch p c free j = false) ∧
    ((∀ k, lo ≤ k → k < lo + u → p.mask.getMsbD k = true) → dataMatch p c free j = false) ∧
    (c.addr.toNat % 4 ≤ lo → lo + u ≤ c.addr.toNat % 4 + c.size →
      (∀ k, lo ≤ k → k < lo + u → p.mask.getMsbD k = false) →
      ∀ b v : BitVec (8 * u), b = specField c.data (8 * lo) (8 * u) → v = specField p.value (8 * lo) (8 * u) →
        dataMatch p c free j =
          (p.ct.getMsbD 0 &&
            match p.ct.getMsbD 1, p.ct.getMsbD 2 with
            | false, false => decide (b = v)
            | false, true => if p.signed then decide (b.toInt < v.toInt) else decide (b.toNat < v.toNat)
            | true, false => if p.signed then decide (v.toInt < b.toInt) else decide (v.toNat < b.toNat)
            | true, true => decide (b ≠ v)))) ∧
  ∀ d : Dev,
    compareG d = ⟨specField d.lctrl1 6 3, specField d.lctrl1 16 2, d.lctrl1.getMsbD 20, specField d.lctrl1 22 4, d.cmpg⟩ ∧
    compareH d = ⟨specField d.lctrl1 9 3, specField d.lctrl1 18 2, d.lctrl1.getMsbD 21, specField d.lctrl1 26 4, d.cmph⟩

/-- For the selections 00, 01, 10, 11 the data event is: some lane of G matches; some lane of H; some lane
matches in both; some lane matches in either.
(stated: R269) -/
def Obligations.DataEventsAreLaneWise : Prop :=
  ∀ (sel : BitVec 2) (g h : Nat → Bool),
    dataEvent sel g h = true ↔
      ∃ j, j < 4 ∧
        match sel.getMsbD 0, sel.getMsbD 1 with
        | false, false => g j = true
        | false, true => h j = true
        | true, false => g j = true ∧ h j = true
        | true, true => g j = true ∨ h j = true

/-- For every programming, instruction watchpoints and list of bus cycles: LWP0 is asserted exactly if on some
one cycle LW0EN is 1 and each condition that LW0IADC, LW0LADC, LW0LDDC make count holds: the instruction
watchpoint LW0IA selects (0 to 3), the address event LW0LA selects (E, F, both, either), the data event
LW0LD selects (some lane of G, of H, in both, in either); LWP1 likewise by LCTRL2 bits 10 to 19. With no bus
cycle neither is asserted. The free values of cycle k begin at n + 10 k (log 16).
(derived: R270 R271 R269 R29 R233) -/
def Obligations.LoadStoreWatchpoints : Prop :=
  ∀ (d : Dev) (f : Flight) (n : Nat) (cs : List BusCycle),
    (lwp0Of (watchCycles d f n cs) = true ↔
      ∃ (k : Nat) (c : BusCycle), cs[k]? = some c ∧ LwpMeets d 0 f (n + 10 * k) c) ∧
    (lwp1Of (watchCycles d f n cs) = true ↔
      ∃ (k : Nat) (c : BusCycle), cs[k]? = some c ∧ LwpMeets d 10 f (n + 10 * k) c)

/-- IEN0 to IEN3 are ICTRL bit 20 to 23 or TECR.IW0 to IW3, LEN0 and LEN1 are LCTRL2 bit 30, 31 or TECR.LW0,
LW1. The direct instruction breakpoint is some IWPn with IENn. With breakpoints recognised and no counter
active, there is a load/store breakpoint exactly if LWP0 with LEN0 or LWP1 with LEN1 is asserted on some bus
cycle, and its address is that of the first such cycle (D34).
(derived: R243 R272 R283 R273 R276) -/
def Obligations.TrapEnablesAreOred : Prop :=
  ∀ (s t : State) (cs : List WatchedCycle) (ien len : Nat → Bool),
    ien 0 = (s.dev.ictrl.getMsbD 20 || s.port.tecr.iw0) → ien 1 = (s.dev.ictrl.getMsbD 21 || s.port.tecr.iw1) →
    ien 2 = (s.dev.ictrl.getMsbD 22 || s.port.tecr.iw2) → ien 3 = (s.dev.ictrl.getMsbD 23 || s.port.tecr.iw3) →
    len 0 = (s.dev.lctrl2.getMsbD 30 || s.port.tecr.lw0) → len 1 = (s.dev.lctrl2.getMsbD 31 || s.port.tecr.lw1) →
    instrTrapEnable s 0 = ien 0 ∧ instrTrapEnable s 1 = ien 1 ∧ instrTrapEnable s 2 = ien 2 ∧ instrTrapEnable s 3 = ien 3 ∧
    loadStoreTrapEnable s 0 = len 0 ∧ loadStoreTrapEnable s 1 = len 1 ∧
    instrBreakDirect s = ((s.cpu.flight.iwp0 && ien 0) || (s.cpu.flight.iwp1 && ien 1) ||
      (s.cpu.flight.iwp2 && ien 2) || (s.cpu.flight.iwp3 && ien 3)) ∧
    ((s.dev.lctrl2.getMsbD 20 = true ∨ s.cpu.msr.ri = true) → s.dev.counta.cntc = 0#2 → s.dev.countb.cntc = 0#2 →
      ((loadStoreBreak s t cs).isSome = ((lwp0Of cs && len 0) || (lwp1Of cs && len 1)) ∧
        ∀ a, loadStoreBreak s t cs = some a ↔
          ∃ (k : Nat) (c : WatchedCycle), cs[k]? = some c ∧ ((c.lwp0 && len 0) || (c.lwp1 && len 1)) = true ∧ c.addr = a ∧
            ∀ (j : Nat) (e : WatchedCycle), j < k → cs[j]? = some e → ((e.lwp0 && len 0) || (e.lwp1 && len 1)) = false))

/-- When the CPU fetches an instruction whose enabled watchpoint is asserted, breakpoints are recognised
(BRKNOMSK or RI), IFM is 0, both counter sources are 00 and the instruction is not an mtspr ICTRL: the step
sets ECR.IBRK, saves the address of the instruction in SRR0, enters debug mode exactly if IBRKE and DME are
set, and changes no general register, no byte of memory and no other development support register. SRR0 is
the spec's own choice (D7, log 12).
(derived: R243 R244 R250 R261 R283 D7) -/
def Obligations.InstructionBreakpointBeforeExecution : Prop :=
  ∀ (s : State) (w : Word) (i : Instr), s.ext.inputs = [] → s.cpu.checkStop = false → s.mode.dm = false →
    (s.port.tecr.nmbrk && s.nmbrkTaken) = false → pendingEvents s = [] → s.trace.isct ≠ 0b100#3 →
    s.ext.cpuExc = none → memReadWord s.cpu.pc s.mem = some w → decodeWord w = .ok i →
    (∀ rs, i ≠ .mtsprIctrl rs) → s.dev.counta.cntc = 0#2 → s.dev.countb.cntc = 0#2 →
    (s.dev.lctrl2.getMsbD 20 = true ∨ s.cpu.msr.ri = true) → s.dev.ictrl.getMsbD 28 = false →
    instrBreakDirect (fetched s) = true →
    ∃ t, step s = .next t ∧ t.dev = { s.dev with ecr := s.dev.ecr ||| 0x00000004#32 } ∧ t.cpu.srr0 = s.cpu.pc ∧
      SameGprs s t ∧ SameMemory s t ∧ t.port = s.port ∧ t.mode.dm = (s.dev.der.getMsbD 29 && s.mode.dme)

/-- When the CPU fetches an instruction whose enabled watchpoint is asserted, breakpoints are recognised, IFM is
1, both counter sources are 00 and the instruction is not an mtspr ICTRL: it is executed in the state in
which IFM is cleared and no other development support register, no register and no byte of memory is
changed; if that answers u, the step answers a state with the general registers and memory of u, IFM = 0,
the rest of ICTRL unchanged and IBRK as in u. If the instruction took no exception, made no bus cycle and
MSR.SE and BE are 0, the pc and all development support registers are those of u: an isync advances the pc
by 4 and sets no cause bit. That SE and BE as they stood before the instruction decide on its trace event is
log 29 and log 45 (PRESUMED, DEDUCED, unsafe).
(derived: R261 R262 R263) -/
def Obligations.IgnoredFirstMatchExecutes : Prop :=
  ∀ (s : State) (w : Word) (i : CpuInstr), Fetches s w i → (∀ rs, i ≠ .table (.mtsprIctrl rs)) →
    s.dev.counta.cntc = 0#2 → s.dev.countb.cntc = 0#2 →
    (s.dev.lctrl2.getMsbD 20 = true ∨ s.cpu.msr.ri = true) → s.dev.ictrl.getMsbD 28 = true →
    instrBreakDirect (fetched s) = true →
    (passBreak (fetched s)).dev = { s.dev with ictrl := s.dev.ictrl &&& 0xFFFFFFF7#32 } ∧
    (passBreak (fetched s)).cpu.pc = s.cpu.pc ∧ SameGprs s (passBreak (fetched s)) ∧
    SameMemory s (passBreak (fetched s)) ∧
    (∀ u, execCpu i (passBreak (fetched s)) = .next u →
      ∃ t, step s = .next t ∧ SameGprs u t ∧ SameMemory u t ∧
        t.dev.ictrl = s.dev.ictrl &&& 0xFFFFFFF7#32 ∧ t.dev.ecr.getMsbD 29 = u.dev.ecr.getMsbD 29 ∧
        (u.cpu.flight.excepted = false → u.cpu.flight.cycles = [] → s.cpu.msr.se = false → s.cpu.msr.be = false →
          t.dev = u.dev ∧ t.cpu.pc = u.cpu.pc)) ∧
    (i = .table .isync → s.cpu.msr.se = false → s.cpu.msr.be = false →
      ∃ t, step s = .next t ∧ t.cpu.pc = s.cpu.pc + 4#32 ∧
        t.dev = { s.dev with ictrl := s.dev.ictrl &&& 0xFFFFFFF7#32 } ∧ SameGprs s t ∧ SameMemory s t)

/-- When the CPU executes a stwu outside debug mode, no instruction breakpoint enabled, no single step or branch
trace, LWP0 enabled without any condition and its software trap enable set, and breakpoints recognised: the
step performs the store and the update, then sets ECR.LBRK, puts the effective address into BAR and the
address of the next instruction into SRR0, and leaves DAR and DSISR unchanged. SRR0 is the spec's own choice
(D7, log 12). For an effective address that is no multiple of 4, that the store is performed as one bus
cycle at it, which BAR then holds, is the model's choice (log 26, N39), as is the wrap of the stored bytes
at 2^32 (log 44).
(derived: R272 R273 R276 R279 R442 D7) -/
def Obligations.LoadStoreBreakpointAfterExecution : Prop :=
  ∀ (s : State) (w : Word) (i : Instr) (rs ra : Reg) (d : Int), s.ext.inputs = [] → s.cpu.checkStop = false → s.mode.dm = false →
    (s.port.tecr.nmbrk && s.nmbrkTaken) = false → pendingEvents s = [] → s.trace.isct ≠ 0b100#3 →
    s.ext.cpuExc = none → memReadWord s.cpu.pc s.mem = some w → decodeWord w = .ok i →
    i = .stwu rs d ra → s.dev.counta.cntc = 0#2 → s.dev.countb.cntc = 0#2 → s.cpu.msr.se = false → s.cpu.msr.be = false →
    (s.dev.lctrl2.getMsbD 20 = true ∨ s.cpu.msr.ri = true) → instrBreakDirect (fetched s) = false →
    s.dev.lctrl2.getMsbD 0 = true → s.dev.lctrl2.getMsbD 3 = false → s.dev.lctrl2.getMsbD 6 = false →
    s.dev.lctrl2.getMsbD 9 = false → s.dev.lctrl2.getMsbD 30 = true →
    ∃ t, step s = .next t ∧
      (∀ a : Word, a = readGpr ra s + BitVec.ofInt 32 d →
        t.dev = { s.dev with ecr := s.dev.ecr ||| 0x00000008#32, bar := a } ∧
        memReadWord a t.mem = some (readGpr rs s) ∧ SameMemoryBut a s t ∧ readGpr ra t = a) ∧
      SameGprsBut ra s t ∧ t.cpu.srr0 = s.cpu.pc + 4#32 ∧ t.cpu.dar = s.cpu.dar ∧ t.cpu.dsisr = s.cpu.dsisr ∧
      t.mode.dm = (s.dev.der.getMsbD 28 && s.mode.dme)

/-- When the CPU executes an instruction that is no mtspr ICTRL and no mtspr of the counter, its fetch asserts
IWP0 with COUNTA counting it (or IWP1 with COUNTB), breakpoints are recognised, the other counter is
inactive and no direct breakpoint is set: with a count above one the instruction is executed (no
breakpoint), and the count is one less if it completed, unchanged if it took an exception; with a count of
one it is not executed, the count stays one, ECR.IBRK is set and SRR0 holds its address, the registers and
memory being unchanged. The counter needs no trap enable by the spec's own choice (D35), and SRR0 is D7's
(log 12). That the RI and BRKNOMSK in force at the fetch decide, also for an instruction that itself changes
them (mtmsr, rfi, mtspr LCTRL2), is the model's reading (log 45, DEDUCED, unsafe). That SE and BE as they
stood before the instruction decide on its trace event is log 29 and log 45 (PRESUMED, DEDUCED, unsafe). The
statement is not about mtspr ICTRL, mtspr of the counter or both counters active.
(derived: R277 R278 R279 R263 R251 R485 D7) -/
def Obligations.InstructionCounterCountsAndExpires : Prop :=
  ∀ (s : State) (w : Word) (i : CpuInstr), Fetches s w i → (∀ rs, i ≠ .table (.mtsprIctrl rs)) →
    (s.dev.lctrl2.getMsbD 20 = true ∨ s.cpu.msr.ri = true) → instrBreakDirect (fetched s) = false →
    ((∀ rs, i ≠ .table (.mtsprCounta rs)) → s.dev.counta.cntc = 0b01#2 → s.dev.countb.cntc = 0#2 → (fetched s).cpu.flight.iwp0 = true →
      (1#16 < s.dev.counta.cntv →
        ∀ u, execCpu i (passBreak (fetched s)) = .next u →
          ∃ t, step s = .next t ∧ SameGprs u t ∧ SameMemory u t ∧ t.dev.ecr.getMsbD 29 = u.dev.ecr.getMsbD 29 ∧
            t.dev.counta = (if u.cpu.flight.excepted then s.dev.counta else ⟨s.dev.counta.cntv - 1#16, 0b01#2⟩) ∧
            (u.cpu.flight.excepted = false → u.cpu.flight.cycles = [] → s.cpu.msr.se = false →
              s.cpu.msr.be = false →
              t.dev = { u.dev with counta := ⟨s.dev.counta.cntv - 1#16, 0b01#2⟩ } ∧ t.cpu.pc = u.cpu.pc)) ∧
      (s.dev.counta.cntv = 1#16 →
        ∃ t, step s = .next t ∧ t.dev = { s.dev with ecr := s.dev.ecr ||| 0x00000004#32 } ∧
          t.cpu.srr0 = s.cpu.pc ∧ SameGprs s t ∧ SameMemory s t)) ∧
    ((∀ rs, i ≠ .table (.mtsprCountb rs)) → s.dev.countb.cntc = 0b01#2 → s.dev.counta.cntc = 0#2 → (fetched s).cpu.flight.iwp1 = true →
      (1#16 < s.dev.countb.cntv →
        ∀ u, execCpu i (passBreak (fetched s)) = .next u →
          ∃ t, step s = .next t ∧ SameGprs u t ∧ SameMemory u t ∧ t.dev.ecr.getMsbD 29 = u.dev.ecr.getMsbD 29 ∧
            t.dev.countb = (if u.cpu.flight.excepted then s.dev.countb else ⟨s.dev.countb.cntv - 1#16, 0b01#2⟩) ∧
            (u.cpu.flight.excepted = false → u.cpu.flight.cycles = [] → s.cpu.msr.se = false →
              s.cpu.msr.be = false →
              t.dev = { u.dev with countb := ⟨s.dev.countb.cntv - 1#16, 0b01#2⟩ } ∧ t.cpu.pc = u.cpu.pc)) ∧
      (s.dev.countb.cntv = 1#16 →
        ∃ t, step s = .next t ∧ t.dev = { s.dev with ecr := s.dev.ecr ||| 0x00000004#32 } ∧
          t.cpu.srr0 = s.cpu.pc ∧ SameGprs s t ∧ SameMemory s t))

/-- When the CPU executes a stwu with LWP0 enabled without any condition and COUNTA counting it (or LWP1 and
COUNTB), the other counter inactive, breakpoints recognised, no instruction breakpoint, no load/store trap
enable and no trace mode: the store and the update are performed; with a count above one the count is one
less and nothing breaks; with a count of one the count is zero, ECR.LBRK is set, BAR holds the effective
address, SRR0 the address of the next instruction, and debug mode is entered exactly if LBRKE and DME are
set. No other special register changes. The counter needs no trap enable by the spec's own choice (D35), and
SRR0 is D7's (log 12). For an effective address that is no multiple of 4, that the store is performed as one
bus cycle at it, which BAR then holds, is the model's choice (log 26, N39), as is the wrap of the stored
bytes at 2^32 (log 44).
(derived: R277 R278 R279 R273 R276 D7) -/
def Obligations.LoadStoreCounterCountsToZero : Prop :=
  ∀ (s : State) (w : Word) (rs ra : Reg) (d : Int) (a : Word), Fetches s w (.table (.stwu rs d ra)) →
    a = readGpr ra s + BitVec.ofInt 32 d → (s.dev.lctrl2.getMsbD 20 = true ∨ s.cpu.msr.ri = true) →
    instrBreakDirect (fetched s) = false → s.cpu.msr.se = false → s.cpu.msr.be = false →
    (s.dev.lctrl2.getMsbD 30 || s.port.tecr.lw0) = false → (s.dev.lctrl2.getMsbD 31 || s.port.tecr.lw1) = false →
    (s.dev.lctrl2.getMsbD 0 = true → s.dev.lctrl2.getMsbD 3 = false → s.dev.lctrl2.getMsbD 6 = false →
      s.dev.lctrl2.getMsbD 9 = false → s.dev.counta.cntc = 0b10#2 → s.dev.countb.cntc = 0#2 →
      (1#16 < s.dev.counta.cntv →
        ∃ t, step s = .next t ∧ t.dev = { s.dev with counta := ⟨s.dev.counta.cntv - 1#16, 0b10#2⟩ } ∧
          t.cpu.pc = s.cpu.pc + 4#32 ∧ memReadWord a t.mem = some (readGpr rs s) ∧ SameMemoryBut a s t ∧ readGpr ra t = a ∧ SameGprsBut ra s t) ∧
      (s.dev.counta.cntv = 1#16 →
        ∃ t, step s = .next t ∧
          t.dev = { s.dev with counta := ⟨0#16, 0b10#2⟩, ecr := s.dev.ecr ||| 0x00000008#32, bar := a } ∧
          t.cpu.srr0 = s.cpu.pc + 4#32 ∧ t.mode.dm = (s.dev.der.getMsbD 28 && s.mode.dme) ∧
          memReadWord a t.mem = some (readGpr rs s) ∧ SameMemoryBut a s t ∧ readGpr ra t = a ∧ SameGprsBut ra s t)) ∧
    (s.dev.lctrl2.getMsbD 10 = true → s.dev.lctrl2.getMsbD 13 = false → s.dev.lctrl2.getMsbD 16 = false →
      s.dev.lctrl2.getMsbD 19 = false → s.dev.countb.cntc = 0b10#2 → s.dev.counta.cntc = 0#2 →
      (1#16 < s.dev.countb.cntv →
        ∃ t, step s = .next t ∧ t.dev = { s.dev with countb := ⟨s.dev.countb.cntv - 1#16, 0b10#2⟩ } ∧
          t.cpu.pc = s.cpu.pc + 4#32 ∧ memReadWord a t.mem = some (readGpr rs s) ∧ SameMemoryBut a s t ∧ readGpr ra t = a ∧ SameGprsBut ra s t) ∧
      (s.dev.countb.cntv = 1#16 →
        ∃ t, step s = .next t ∧
          t.dev = { s.dev with countb := ⟨0#16, 0b10#2⟩, ecr := s.dev.ecr ||| 0x00000008#32, bar := a } ∧
          t.cpu.srr0 = s.cpu.pc + 4#32 ∧ t.mode.dm = (s.dev.der.getMsbD 28 && s.mode.dme) ∧
          memReadWord a t.mem = some (readGpr rs s) ∧ SameMemoryBut a s t ∧ readGpr ra t = a ∧ SameGprsBut ra s t))

/-- When the CPU fetches an instruction outside debug mode with BRKNOMSK = 0 and MSR.RI = 0, whatever
watchpoints it has, whatever traps are enabled, and whatever the counters and IFM hold: no instruction
breakpoint is taken; the instruction is executed in a state with the development support registers, the
general registers, the pc and the memory of before; if that answers u, the step answers a state with the
general registers and memory of u and its development support registers, but that ECR.TR may be set by the
trace event, so no IBRK, no LBRK and no BAR; COUNTA, COUNTB and ICTRL with IFM change only by an mtspr of
that register. With MSR.SE and BE 0 no cause bit is added, and pc and modes are those of u. That the fetch's
RI decides for an instruction that itself sets RI or BRKNOMSK is the model's reading (log 45, DEDUCED,
unsafe). That SE and BE as they stood before the instruction decide on its trace event is log 29 and log 45
(PRESUMED, DEDUCED, unsafe).
(derived: R250 R251 R261 R548 R272 R278) -/
def Obligations.MaskedModeLosesBreakpoints : Prop :=
  ∀ (s : State) (w : Word) (i : CpuInstr), Fetches s w i → s.dev.lctrl2.getMsbD 20 = false → s.cpu.msr.ri = false →
    instrBreakTaken (some i) (fetched s) = false ∧ (passBreak (fetched s)).dev = s.dev ∧
    (passBreak (fetched s)).cpu.pc = s.cpu.pc ∧ SameGprs s (passBreak (fetched s)) ∧
    SameMemory s (passBreak (fetched s)) ∧
    ∀ u, execCpu i (passBreak (fetched s)) = .next u →
      ∃ t, step s = .next t ∧ SameGprs u t ∧ SameMemory u t ∧
        (t.dev = u.dev ∨ t.dev = { u.dev with ecr := u.dev.ecr ||| 0x00020000#32 }) ∧
        ((∀ rs, i ≠ .table (.mtsprCounta rs)) → t.dev.counta = s.dev.counta) ∧
        ((∀ rs, i ≠ .table (.mtsprCountb rs)) → t.dev.countb = s.dev.countb) ∧
        ((∀ rs, i ≠ .table (.mtsprIctrl rs)) → t.dev.ictrl = s.dev.ictrl) ∧
        ((∀ rs, i ≠ .table (.mtsprBar rs)) → t.dev.bar = s.dev.bar) ∧
        (s.cpu.msr.se = false → s.cpu.msr.be = false →
          t.dev = u.dev ∧ t.cpu.pc = u.cpu.pc ∧ t.mode = u.mode)

/-- A CPU step in debug mode (no input left, no pin pulsed before) that answers next leaves every watchpoint pin
quiet; and COUNTA, COUNTB, ICTRL and BAR change only by an mtspr of that register.
(derived: R285 R461) -/
def Obligations.NothingCountsInDebugMode : Prop :=
  ∀ s t : State, s.ext.inputs = [] → s.mode.dm = true → s.trace.pins = WatchPins.quiet → step s = .next t →
    t.trace.pins = WatchPins.quiet ∧
    (t.dev.counta ≠ s.dev.counta → ∃ w rs, s.cpu.dpir = some w ∧ decodeWord w = .ok (.mtsprCounta rs)) ∧
    (t.dev.countb ≠ s.dev.countb → ∃ w rs, s.cpu.dpir = some w ∧ decodeWord w = .ok (.mtsprCountb rs)) ∧
    (t.dev.ictrl ≠ s.dev.ictrl → ∃ w rs, s.cpu.dpir = some w ∧ decodeWord w = .ok (.mtsprIctrl rs)) ∧
    (t.dev.bar ≠ s.dev.bar → ∃ w rs, s.cpu.dpir = some w ∧ decodeWord w = .ok (.mtsprBar rs))

/-- When the CPU executes an instruction outside debug mode, no instruction breakpoint being taken and MSR.RI,
BRKNOMSK and the trap enables being anything: if it completes, the pins IWP0 to IWP2 carry its instruction
watchpoints (the programming of the fetch and the word address), LWP0 and LWP1 are asserted exactly if some
one of its bus cycles meets every condition LCTRL2 enables, and a load/store breakpoint or trace event that
follows leaves them so; if it takes an exception every pin is quiet. That IWP0 to IWP2 and no other have
pins is the spec's own choice (D21); that each retired instruction pulses its pins, where R234 lets reports
merge, is the model's (log 28), as are the free values of the bus cycles (log 16), and that the programming
in force at the fetch decides for LWP0 and LWP1 too is its reading (log 45, DEDUCED, unsafe).
(derived: R242 R232 R233 R234 R251 R270 R485) -/
def Obligations.WatchpointPinsAtRetirement : Prop :=
  ∀ (s u : State) (w : Word) (i : CpuInstr) (f : Flight), Fetches s w i →
    f = flightOfFetch (s.cpu.pc.extractLsb' 2 30) s.dev → instrBreakTaken (some i) (fetched s) = false →
    execCpu i (passBreak (fetched s)) = .next u →
    ∃ t, step s = .next t ∧
      (u.cpu.flight.excepted = false →
        t.trace.pins.iwp0 = f.iwp0 ∧ t.trace.pins.iwp1 = f.iwp1 ∧ t.trace.pins.iwp2 = f.iwp2 ∧
        (t.trace.pins.lwp0 = true ↔
          ∃ (k : Nat) (c : BusCycle), u.cpu.flight.cycles[k]? = some c ∧ LwpMeets s.dev 0 f (u.draws + 10 * k) c) ∧
        (t.trace.pins.lwp1 = true ↔
          ∃ (k : Nat) (c : BusCycle), u.cpu.flight.cycles[k]? = some c ∧ LwpMeets s.dev 10 f (u.draws + 10 * k) c)) ∧
      (u.cpu.flight.excepted = true → t.trace.pins = WatchPins.quiet)

/-- When the CPU fetches an instruction outside debug mode and the step answers a next state: the fetch adds one
show cycle with the word address and its program trace attribute, exactly if ISCTL (the two low bits of the
programming in force) is 00; or 01 and the fetch is marked as a change of flow; or 10 and it carries the
attribute; or 11, it carries the attribute, and VSYNC is 1 (or its negation is not yet reported, log 51) or
the mark is that of a VSYNC change. The rest of the step only adds events after it. The programming in force
for the next fetch is the ISCT_SER that ICTRL held before the instruction. Changes of VSYNC that wait to be
reported go on waiting while an address is still to be shown or debug mode was entered; else exactly one is
reported, as the last event, and the next fetch is marked: that several of them wait in a queue, and go on
waiting over a debug mode entry, is the model's choice (log 51, DESIGN CHOICE, unsafe; R198 only delays a
negation). The first fetch after debug mode, with ISCTL = 11, VSYNC = 0 and no change of VSYNC, is not shown
by this, where R195 calls it visible externally: the model's choice (log 52).
(derived: R203 R204 R205 R198 R185) -/
def Obligations.ShowCycles : Prop :=
  ∀ (s t : State) (w : Word) (i : CpuInstr), Fetches s w i → step s = .next t →
    (fetched s).trace.events = s.trace.events ++
      (if (match s.trace.isct.getMsbD 1, s.trace.isct.getMsbD 2 with
          | false, false => true
          | false, true => s.trace.mark.cof || s.trace.mark.ptc
          | true, false => s.trace.mark.ptc
          | true, true => s.trace.mark.ptc && (s.port.tecr.vsync || s.trace.vsyncHeld != 0 || s.trace.mark.vsync)) then
        [.showCycle (s.cpu.pc.extractLsb' 2 30) s.trace.mark.ptc]
      else []) ∧
    (∃ rest, t.trace.events = (fetched s).trace.events ++ rest) ∧
    t.trace.isct = s.dev.ictrl.extractLsb' 0 3 ∧
    (s.trace.vsyncHeld ≠ 0 →
      (t.trace.vsyncHeld = s.trace.vsyncHeld ∧ (t.mode.dm = true ∨ t.trace.mark.ptc = true)) ∨
      (t.trace.vsyncHeld + 1 = s.trace.vsyncHeld ∧ t.mode.dm = false ∧ (∃ before, t.trace.events = before ++ [.typeCode 0b011#3]) ∧
        t.trace.mark.ptc = true ∧ t.trace.mark.vsync = true))

/-- In state TYPE every code is an instruction type, and the next state is FLUSH exactly after 100, 101, 110,
111; in state FLUSH 111 is an instruction type and the state stays FLUSH, 110 is reserved, and every other
code is a count of that many flushed instructions, at most 5, after which the state is TYPE. VFLS is 00, 01
or 10 for 0, 1 or 2 instructions flushed from the history buffer while FRZ = 0, and 11 exactly while FRZ =
1; the decoder gives back the count, or freeze. A back trace buffer holds what was sampled from reset to the
second report of VSYNC, a window trace buffer what was sampled from the first report to the second; of the
show cycles only the marked ones are sampled. The initial state TYPE is the spec's inference (log 6).
(derived: R187 R188 R154 R155 R193 R198 R201 R202 U5) -/
def Obligations.StatusPinDecoders : Prop :=
  (∀ c : BitVec 3, vfDecode .type c = some (.instrType c, if 4 ≤ c.toNat then .flush else .type)) ∧
  vfDecode .flush 0b111#3 = some (.instrType 0b111#3, .flush) ∧ vfDecode .flush 0b110#3 = none ∧
  (∀ (c : BitVec 3) (n : Fin 6), c.toNat = n.val →
    queueFlushCode n = c ∧ vfDecode .flush c = some (.flushed n, .type)) ∧
  State.reset.trace.vfDec = .type ∧
  historyFlushCode 0 = 0b00#2 ∧ historyFlushCode 1 = 0b01#2 ∧ historyFlushCode 2 = 0b10#2 ∧
  (∀ (n : Fin 3) (s : State), (vflsPins n s = 0b11#2 ↔ s.mode.frz = true) ∧
    (s.mode.frz = false → vflsPins n s = historyFlushCode n) ∧
    vflsDecode (vflsPins n s) = (if s.mode.frz then .freeze else .flushed n)) ∧
  (∀ before window after : List TraceEvent, vsyncReport ∉ before → vsyncReport ∉ window →
    backTrace (before ++ vsyncReport :: window ++ vsyncReport :: after) =
      before.filter sampled ++ vsyncReport :: window.filter sampled ++ [vsyncReport] ∧
    windowTrace (before ++ vsyncReport :: window ++ vsyncReport :: after) =
      vsyncReport :: window.filter sampled ++ [vsyncReport]) ∧
  (∀ (e : TraceEvent), sampled e = false ↔ ∃ a, e = .showCycle a false)
end

