-- ==== Sys2Proof/Laws/Memory.lean ====
section
/-! SUPPORT. Memory: read after write, and every memory operation keeps the canonical form. -/

namespace Sys2Proof.Machine

theorem memRead_memWrite_same (a : Nat) (v : Byte) (m : List Host.Cell) :
    memRead a (memWrite a v m) = some v := by
  induction m with
  | nil => simp [memWrite, memRead]
  | cons c m ih =>
    obtain ⟨b, u⟩ := c
    simp only [memWrite]
    split
    · simp [memRead]
    · split
      · simp [memRead]
      · simp [memRead, *]

theorem memRead_memWrite_other {a b : Nat} (h : b ≠ a) (v : Byte) (m : List Host.Cell) :
    memRead b (memWrite a v m) = memRead b m := by
  induction m with
  | nil => simp [memWrite, memRead, h]
  | cons c m ih =>
    obtain ⟨k, u⟩ := c
    simp only [memWrite]
    split
    · simp [memRead, h]
    · split
      · next hk => subst hk; simp [memRead, h]
      · simp [memRead, ih]

theorem memRead_memWrite (a b : Nat) (v : Byte) (m : List Host.Cell) :
    memRead b (memWrite a v m) = if b = a then some v else memRead b m := by
  split
  · next h => subst h; exact memRead_memWrite_same b v m
  · next h => exact memRead_memWrite_other h v m

theorem memWrite_wfFrom {a lo : Nat} (v : Byte) {m : List Host.Cell} (h : Memory.wfFrom lo m = true)
    (hlo : lo ≤ a) (ha : a < 2 ^ 32) : Memory.wfFrom lo (memWrite a v m) = true := by
  induction m generalizing lo with
  | nil => simpa [memWrite, Memory.wfFrom, hlo] using ha
  | cons c m ih =>
    obtain ⟨b, u⟩ := c
    simp only [Memory.wfFrom, Bool.and_eq_true, decide_eq_true_eq] at h
    simp only [memWrite]
    split
    · simp only [Memory.wfFrom, Bool.and_eq_true, decide_eq_true_eq]
      exact ⟨⟨hlo, ha⟩, ⟨by omega, h.1.2⟩, h.2⟩
    · split
      · next hb => subst hb; simpa [Memory.wfFrom] using h
      · simp only [Memory.wfFrom, Bool.and_eq_true, decide_eq_true_eq]
        exact ⟨h.1, ih h.2 (by omega)⟩

/-- A byte write keeps the canonical form. -/
theorem memWrite_wf {a : Nat} (v : Byte) {m : List Host.Cell} (h : Memory.wf m = true) (ha : a < 2 ^ 32) :
    Memory.wf (memWrite a v m) = true := memWrite_wfFrom v h (Nat.zero_le a) ha

theorem byteAddr_lt (a : Word) (k : Nat) : byteAddr a k < 2 ^ 32 := (a + BitVec.ofNat 32 k).isLt

/-- A word write keeps the canonical form. -/
theorem memWriteWord_wf (a v : Word) {m : List Host.Cell} (h : Memory.wf m = true) :
    Memory.wf (memWriteWord a v m) = true := by
  unfold memWriteWord
  exact memWrite_wf _ (memWrite_wf _ (memWrite_wf _ (memWrite_wf _ h (byteAddr_lt a 0)) (byteAddr_lt a 1))
    (byteAddr_lt a 2)) (byteAddr_lt a 3)

theorem byteAddr_ne (a : Word) {j k : Nat} (hj : j < 4) (hk : k < 4) (h : j ≠ k) : byteAddr a j ≠ byteAddr a k := by
  simp only [byteAddr, BitVec.toNat_add, BitVec.toNat_ofNat]
  omega

/-- A word write leaves every byte outside the word alone. -/
theorem memWriteWord_other (a v : Word) (m : List Host.Cell) {b : Nat} (h0 : b ≠ byteAddr a 0)
    (h1 : b ≠ byteAddr a 1) (h2 : b ≠ byteAddr a 2) (h3 : b ≠ byteAddr a 3) :
    memRead b (memWriteWord a v m) = memRead b m := by
  simp [memWriteWord, memRead_memWrite, h0, h1, h2, h3]

/-- Each byte of a written word. -/
theorem memWriteWord_lane (a v : Word) (m : List Host.Cell) {k : Nat} (hk : k < 4) :
    memRead (byteAddr a k) (memWriteWord a v m) = some (lane v k) := by
  have h : k = 0 ∨ k = 1 ∨ k = 2 ∨ k = 3 := by omega
  have n01 := byteAddr_ne a (j := 0) (k := 1) (by omega) (by omega) (by omega)
  have n02 := byteAddr_ne a (j := 0) (k := 2) (by omega) (by omega) (by omega)
  have n03 := byteAddr_ne a (j := 0) (k := 3) (by omega) (by omega) (by omega)
  have n12 := byteAddr_ne a (j := 1) (k := 2) (by omega) (by omega) (by omega)
  have n13 := byteAddr_ne a (j := 1) (k := 3) (by omega) (by omega) (by omega)
  have n23 := byteAddr_ne a (j := 2) (k := 3) (by omega) (by omega) (by omega)
  rcases h with rfl | rfl | rfl | rfl <;> simp [memWriteWord, memRead_memWrite, *]

theorem wordOfBytes_lanes (v : Word) : wordOfBytes (lane v 0) (lane v 1) (lane v 2) (lane v 3) = v := by
  apply BitVec.eq_of_getLsbD_eq
  intro i hi
  simp only [wordOfBytes, lane, BitVec.getLsbD_append, BitVec.getLsbD_extractLsb']
  by_cases h1 : i < 8 <;> by_cases h2 : i < 16 <;> by_cases h3 : i < 24 <;> simp_all <;> grind

/-- A word made of bytes has them on its lanes. -/
@[simp] theorem lane_wordOfBytes (b0 b1 b2 b3 : Byte) :
    lane (wordOfBytes b0 b1 b2 b3) 0 = b0 ∧ lane (wordOfBytes b0 b1 b2 b3) 1 = b1 ∧
      lane (wordOfBytes b0 b1 b2 b3) 2 = b2 ∧ lane (wordOfBytes b0 b1 b2 b3) 3 = b3 := by
  refine ⟨?_, ?_, ?_, ?_⟩ <;>
    (apply BitVec.eq_of_getLsbD_eq; intro i hi;
     simp only [wordOfBytes, lane, BitVec.getLsbD_append, BitVec.getLsbD_extractLsb'];
     simp [hi] <;> grind)

/-- Reading a word after writing it gives the word. -/
theorem memReadWord_memWriteWord (a v : Word) (m : List Host.Cell) :
    memReadWord a (memWriteWord a v m) = some v := by
  simp [memReadWord, memWriteWord_lane, wordOfBytes_lanes]

end Sys2Proof.Machine
end

