-- ==== Sys2Proof/Laws/State.lean ====
section
/-! SUPPORT. One lemma per field for each update of the state: what the operation leaves there. -/

namespace Sys2Proof.Machine

@[simp] theorem writeGpr_gpr (r : Reg) (v : Word) (s : State) : (writeGpr r v s).cpu.gpr = s.cpu.gpr.set r.toNat v r.isLt :=
  rfl
@[simp] theorem writeGpr_pc (r : Reg) (v : Word) (s : State) : (writeGpr r v s).cpu.pc = s.cpu.pc :=
  rfl
@[simp] theorem writeGpr_msr (r : Reg) (v : Word) (s : State) : (writeGpr r v s).cpu.msr = s.cpu.msr :=
  rfl
@[simp] theorem writeGpr_srr0 (r : Reg) (v : Word) (s : State) : (writeGpr r v s).cpu.srr0 = s.cpu.srr0 :=
  rfl
@[simp] theorem writeGpr_srr1 (r : Reg) (v : Word) (s : State) : (writeGpr r v s).cpu.srr1 = s.cpu.srr1 :=
  rfl
@[simp] theorem writeGpr_dar (r : Reg) (v : Word) (s : State) : (writeGpr r v s).cpu.dar = s.cpu.dar :=
  rfl
@[simp] theorem writeGpr_dsisr (r : Reg) (v : Word) (s : State) : (writeGpr r v s).cpu.dsisr = s.cpu.dsisr :=
  rfl
@[simp] theorem writeGpr_checkStop (r : Reg) (v : Word) (s : State) : (writeGpr r v s).cpu.checkStop = s.cpu.checkStop :=
  rfl
@[simp] theorem writeGpr_wait (r : Reg) (v : Word) (s : State) : (writeGpr r v s).cpu.wait = s.cpu.wait :=
  rfl
@[simp] theorem writeGpr_dpir (r : Reg) (v : Word) (s : State) : (writeGpr r v s).cpu.dpir = s.cpu.dpir :=
  rfl
@[simp] theorem writeGpr_flight (r : Reg) (v : Word) (s : State) : (writeGpr r v s).cpu.flight = s.cpu.flight :=
  rfl
@[simp] theorem writeGpr_dev (r : Reg) (v : Word) (s : State) : (writeGpr r v s).dev = s.dev :=
  rfl
@[simp] theorem writeGpr_mode (r : Reg) (v : Word) (s : State) : (writeGpr r v s).mode = s.mode :=
  rfl
@[simp] theorem writeGpr_port (r : Reg) (v : Word) (s : State) : (writeGpr r v s).port = s.port :=
  rfl
@[simp] theorem writeGpr_trace (r : Reg) (v : Word) (s : State) : (writeGpr r v s).trace = s.trace :=
  rfl
@[simp] theorem writeGpr_ext (r : Reg) (v : Word) (s : State) : (writeGpr r v s).ext = s.ext :=
  rfl
@[simp] theorem writeGpr_mem (r : Reg) (v : Word) (s : State) : (writeGpr r v s).mem = s.mem :=
  rfl
@[simp] theorem writeGpr_draws (r : Reg) (v : Word) (s : State) : (writeGpr r v s).draws = s.draws :=
  rfl
@[simp] theorem writeGpr_syncedA (r : Reg) (v : Word) (s : State) : (writeGpr r v s).syncedA = s.syncedA :=
  rfl
@[simp] theorem writeGpr_syncedB (r : Reg) (v : Word) (s : State) : (writeGpr r v s).syncedB = s.syncedB :=
  rfl
@[simp] theorem writeGpr_nmbrkTaken (r : Reg) (v : Word) (s : State) : (writeGpr r v s).nmbrkTaken = s.nmbrkTaken :=
  rfl

@[simp] theorem spend_gpr (k : Nat) (s : State) : (spend k s).cpu.gpr = s.cpu.gpr :=
  rfl
@[simp] theorem spend_pc (k : Nat) (s : State) : (spend k s).cpu.pc = s.cpu.pc :=
  rfl
@[simp] theorem spend_msr (k : Nat) (s : State) : (spend k s).cpu.msr = s.cpu.msr :=
  rfl
@[simp] theorem spend_srr0 (k : Nat) (s : State) : (spend k s).cpu.srr0 = s.cpu.srr0 :=
  rfl
@[simp] theorem spend_srr1 (k : Nat) (s : State) : (spend k s).cpu.srr1 = s.cpu.srr1 :=
  rfl
@[simp] theorem spend_dar (k : Nat) (s : State) : (spend k s).cpu.dar = s.cpu.dar :=
  rfl
@[simp] theorem spend_dsisr (k : Nat) (s : State) : (spend k s).cpu.dsisr = s.cpu.dsisr :=
  rfl
@[simp] theorem spend_checkStop (k : Nat) (s : State) : (spend k s).cpu.checkStop = s.cpu.checkStop :=
  rfl
@[simp] theorem spend_wait (k : Nat) (s : State) : (spend k s).cpu.wait = s.cpu.wait :=
  rfl
@[simp] theorem spend_dpir (k : Nat) (s : State) : (spend k s).cpu.dpir = s.cpu.dpir :=
  rfl
@[simp] theorem spend_flight (k : Nat) (s : State) : (spend k s).cpu.flight = s.cpu.flight :=
  rfl
@[simp] theorem spend_dev (k : Nat) (s : State) : (spend k s).dev = s.dev :=
  rfl
@[simp] theorem spend_mode (k : Nat) (s : State) : (spend k s).mode = s.mode :=
  rfl
@[simp] theorem spend_port (k : Nat) (s : State) : (spend k s).port = s.port :=
  rfl
@[simp] theorem spend_trace (k : Nat) (s : State) : (spend k s).trace = s.trace :=
  rfl
@[simp] theorem spend_ext (k : Nat) (s : State) : (spend k s).ext = s.ext :=
  rfl
@[simp] theorem spend_mem (k : Nat) (s : State) : (spend k s).mem = s.mem :=
  rfl
@[simp] theorem spend_draws (k : Nat) (s : State) : (spend k s).draws = s.draws + k :=
  rfl
@[simp] theorem spend_syncedA (k : Nat) (s : State) : (spend k s).syncedA = s.syncedA :=
  rfl
@[simp] theorem spend_syncedB (k : Nat) (s : State) : (spend k s).syncedB = s.syncedB :=
  rfl
@[simp] theorem spend_nmbrkTaken (k : Nat) (s : State) : (spend k s).nmbrkTaken = s.nmbrkTaken :=
  rfl

@[simp] theorem advance_gpr (s : State) : (advance s).cpu.gpr = s.cpu.gpr :=
  rfl
@[simp] theorem advance_pc (s : State) : (advance s).cpu.pc = s.cpu.pc + 4#32 :=
  rfl
@[simp] theorem advance_msr (s : State) : (advance s).cpu.msr = s.cpu.msr :=
  rfl
@[simp] theorem advance_srr0 (s : State) : (advance s).cpu.srr0 = s.cpu.srr0 :=
  rfl
@[simp] theorem advance_srr1 (s : State) : (advance s).cpu.srr1 = s.cpu.srr1 :=
  rfl
@[simp] theorem advance_dar (s : State) : (advance s).cpu.dar = s.cpu.dar :=
  rfl
@[simp] theorem advance_dsisr (s : State) : (advance s).cpu.dsisr = s.cpu.dsisr :=
  rfl
@[simp] theorem advance_checkStop (s : State) : (advance s).cpu.checkStop = s.cpu.checkStop :=
  rfl
@[simp] theorem advance_wait (s : State) : (advance s).cpu.wait = s.cpu.wait :=
  rfl
@[simp] theorem advance_dpir (s : State) : (advance s).cpu.dpir = s.cpu.dpir :=
  rfl
@[simp] theorem advance_flight (s : State) : (advance s).cpu.flight = s.cpu.flight :=
  rfl
@[simp] theorem advance_dev (s : State) : (advance s).dev = s.dev :=
  rfl
@[simp] theorem advance_mode (s : State) : (advance s).mode = s.mode :=
  rfl
@[simp] theorem advance_port (s : State) : (advance s).port = s.port :=
  rfl
@[simp] theorem advance_trace (s : State) : (advance s).trace = s.trace :=
  rfl
@[simp] theorem advance_ext (s : State) : (advance s).ext = s.ext :=
  rfl
@[simp] theorem advance_mem (s : State) : (advance s).mem = s.mem :=
  rfl
@[simp] theorem advance_draws (s : State) : (advance s).draws = s.draws :=
  rfl
@[simp] theorem advance_syncedA (s : State) : (advance s).syncedA = s.syncedA :=
  rfl
@[simp] theorem advance_syncedB (s : State) : (advance s).syncedB = s.syncedB :=
  rfl
@[simp] theorem advance_nmbrkTaken (s : State) : (advance s).nmbrkTaken = s.nmbrkTaken :=
  rfl

@[simp] theorem storeWord_gpr (a v : Word) (s : State) : (storeWord a v s).cpu.gpr = s.cpu.gpr :=
  rfl
@[simp] theorem storeWord_pc (a v : Word) (s : State) : (storeWord a v s).cpu.pc = s.cpu.pc :=
  rfl
@[simp] theorem storeWord_msr (a v : Word) (s : State) : (storeWord a v s).cpu.msr = s.cpu.msr :=
  rfl
@[simp] theorem storeWord_srr0 (a v : Word) (s : State) : (storeWord a v s).cpu.srr0 = s.cpu.srr0 :=
  rfl
@[simp] theorem storeWord_srr1 (a v : Word) (s : State) : (storeWord a v s).cpu.srr1 = s.cpu.srr1 :=
  rfl
@[simp] theorem storeWord_dar (a v : Word) (s : State) : (storeWord a v s).cpu.dar = s.cpu.dar :=
  rfl
@[simp] theorem storeWord_dsisr (a v : Word) (s : State) : (storeWord a v s).cpu.dsisr = s.cpu.dsisr :=
  rfl
@[simp] theorem storeWord_checkStop (a v : Word) (s : State) : (storeWord a v s).cpu.checkStop = s.cpu.checkStop :=
  rfl
@[simp] theorem storeWord_wait (a v : Word) (s : State) : (storeWord a v s).cpu.wait = s.cpu.wait :=
  rfl
@[simp] theorem storeWord_dpir (a v : Word) (s : State) : (storeWord a v s).cpu.dpir = s.cpu.dpir :=
  rfl
@[simp] theorem storeWord_dev (a v : Word) (s : State) : (storeWord a v s).dev = s.dev :=
  rfl
@[simp] theorem storeWord_mode (a v : Word) (s : State) : (storeWord a v s).mode = s.mode :=
  rfl
@[simp] theorem storeWord_port (a v : Word) (s : State) : (storeWord a v s).port = s.port :=
  rfl
@[simp] theorem storeWord_trace (a v : Word) (s : State) : (storeWord a v s).trace = s.trace :=
  rfl
@[simp] theorem storeWord_ext (a v : Word) (s : State) : (storeWord a v s).ext = s.ext :=
  rfl
@[simp] theorem storeWord_mem (a v : Word) (s : State) : (storeWord a v s).mem = memWriteWord a v s.mem :=
  rfl
@[simp] theorem storeWord_draws (a v : Word) (s : State) : (storeWord a v s).draws = s.draws :=
  rfl
@[simp] theorem storeWord_syncedA (a v : Word) (s : State) : (storeWord a v s).syncedA = s.syncedA :=
  rfl
@[simp] theorem storeWord_syncedB (a v : Word) (s : State) : (storeWord a v s).syncedB = s.syncedB :=
  rfl
@[simp] theorem storeWord_nmbrkTaken (a v : Word) (s : State) : (storeWord a v s).nmbrkTaken = s.nmbrkTaken :=
  rfl

@[simp] theorem showFetch_gpr (s : State) : (showFetch s).cpu.gpr = s.cpu.gpr :=
  rfl
@[simp] theorem showFetch_pc (s : State) : (showFetch s).cpu.pc = s.cpu.pc :=
  rfl
@[simp] theorem showFetch_msr (s : State) : (showFetch s).cpu.msr = s.cpu.msr :=
  rfl
@[simp] theorem showFetch_srr0 (s : State) : (showFetch s).cpu.srr0 = s.cpu.srr0 :=
  rfl
@[simp] theorem showFetch_srr1 (s : State) : (showFetch s).cpu.srr1 = s.cpu.srr1 :=
  rfl
@[simp] theorem showFetch_dar (s : State) : (showFetch s).cpu.dar = s.cpu.dar :=
  rfl
@[simp] theorem showFetch_dsisr (s : State) : (showFetch s).cpu.dsisr = s.cpu.dsisr :=
  rfl
@[simp] theorem showFetch_checkStop (s : State) : (showFetch s).cpu.checkStop = s.cpu.checkStop :=
  rfl
@[simp] theorem showFetch_wait (s : State) : (showFetch s).cpu.wait = s.cpu.wait :=
  rfl
@[simp] theorem showFetch_dpir (s : State) : (showFetch s).cpu.dpir = s.cpu.dpir :=
  rfl
@[simp] theorem showFetch_flight (s : State) : (showFetch s).cpu.flight = s.cpu.flight :=
  rfl
@[simp] theorem showFetch_dev (s : State) : (showFetch s).dev = s.dev :=
  rfl
@[simp] theorem showFetch_mode (s : State) : (showFetch s).mode = s.mode :=
  rfl
@[simp] theorem showFetch_port (s : State) : (showFetch s).port = s.port :=
  rfl
@[simp] theorem showFetch_ext (s : State) : (showFetch s).ext = s.ext :=
  rfl
@[simp] theorem showFetch_mem (s : State) : (showFetch s).mem = s.mem :=
  rfl
@[simp] theorem showFetch_draws (s : State) : (showFetch s).draws = s.draws :=
  rfl
@[simp] theorem showFetch_syncedA (s : State) : (showFetch s).syncedA = s.syncedA :=
  rfl
@[simp] theorem showFetch_syncedB (s : State) : (showFetch s).syncedB = s.syncedB :=
  rfl
@[simp] theorem showFetch_nmbrkTaken (s : State) : (showFetch s).nmbrkTaken = s.nmbrkTaken :=
  rfl

@[simp] theorem markExcepted_gpr (s : State) : (markExcepted s).cpu.gpr = s.cpu.gpr :=
  rfl
@[simp] theorem markExcepted_pc (s : State) : (markExcepted s).cpu.pc = s.cpu.pc :=
  rfl
@[simp] theorem markExcepted_msr (s : State) : (markExcepted s).cpu.msr = s.cpu.msr :=
  rfl
@[simp] theorem markExcepted_srr0 (s : State) : (markExcepted s).cpu.srr0 = s.cpu.srr0 :=
  rfl
@[simp] theorem markExcepted_srr1 (s : State) : (markExcepted s).cpu.srr1 = s.cpu.srr1 :=
  rfl
@[simp] theorem markExcepted_dar (s : State) : (markExcepted s).cpu.dar = s.cpu.dar :=
  rfl
@[simp] theorem markExcepted_dsisr (s : State) : (markExcepted s).cpu.dsisr = s.cpu.dsisr :=
  rfl
@[simp] theorem markExcepted_checkStop (s : State) : (markExcepted s).cpu.checkStop = s.cpu.checkStop :=
  rfl
@[simp] theorem markExcepted_wait (s : State) : (markExcepted s).cpu.wait = s.cpu.wait :=
  rfl
@[simp] theorem markExcepted_dpir (s : State) : (markExcepted s).cpu.dpir = s.cpu.dpir :=
  rfl
@[simp] theorem markExcepted_dev (s : State) : (markExcepted s).dev = s.dev :=
  rfl
@[simp] theorem markExcepted_mode (s : State) : (markExcepted s).mode = s.mode :=
  rfl
@[simp] theorem markExcepted_port (s : State) : (markExcepted s).port = s.port :=
  rfl
@[simp] theorem markExcepted_trace (s : State) : (markExcepted s).trace = s.trace :=
  rfl
@[simp] theorem markExcepted_ext (s : State) : (markExcepted s).ext = s.ext :=
  rfl
@[simp] theorem markExcepted_mem (s : State) : (markExcepted s).mem = s.mem :=
  rfl
@[simp] theorem markExcepted_draws (s : State) : (markExcepted s).draws = s.draws :=
  rfl
@[simp] theorem markExcepted_syncedA (s : State) : (markExcepted s).syncedA = s.syncedA :=
  rfl
@[simp] theorem markExcepted_syncedB (s : State) : (markExcepted s).syncedB = s.syncedB :=
  rfl
@[simp] theorem markExcepted_nmbrkTaken (s : State) : (markExcepted s).nmbrkTaken = s.nmbrkTaken :=
  rfl

@[simp] theorem recordCause_gpr (e : Event) (s : State) : (recordCause e s).cpu.gpr = s.cpu.gpr :=
  rfl
@[simp] theorem recordCause_pc (e : Event) (s : State) : (recordCause e s).cpu.pc = s.cpu.pc :=
  rfl
@[simp] theorem recordCause_msr (e : Event) (s : State) : (recordCause e s).cpu.msr = s.cpu.msr :=
  rfl
@[simp] theorem recordCause_srr0 (e : Event) (s : State) : (recordCause e s).cpu.srr0 = s.cpu.srr0 :=
  rfl
@[simp] theorem recordCause_srr1 (e : Event) (s : State) : (recordCause e s).cpu.srr1 = s.cpu.srr1 :=
  rfl
@[simp] theorem recordCause_dar (e : Event) (s : State) : (recordCause e s).cpu.dar = s.cpu.dar :=
  rfl
@[simp] theorem recordCause_dsisr (e : Event) (s : State) : (recordCause e s).cpu.dsisr = s.cpu.dsisr :=
  rfl
@[simp] theorem recordCause_checkStop (e : Event) (s : State) : (recordCause e s).cpu.checkStop = s.cpu.checkStop :=
  rfl
@[simp] theorem recordCause_wait (e : Event) (s : State) : (recordCause e s).cpu.wait = s.cpu.wait :=
  rfl
@[simp] theorem recordCause_dpir (e : Event) (s : State) : (recordCause e s).cpu.dpir = s.cpu.dpir :=
  rfl
@[simp] theorem recordCause_flight (e : Event) (s : State) : (recordCause e s).cpu.flight = s.cpu.flight :=
  rfl
@[simp] theorem recordCause_dev (e : Event) (s : State) : (recordCause e s).dev = { s.dev with ecr := s.dev.ecr ||| eventMask e } :=
  rfl
@[simp] theorem recordCause_mode (e : Event) (s : State) : (recordCause e s).mode = { s.mode with frz := s.mode.frz || eventEnabled e s } :=
  rfl
@[simp] theorem recordCause_port (e : Event) (s : State) : (recordCause e s).port = s.port :=
  rfl
@[simp] theorem recordCause_trace (e : Event) (s : State) : (recordCause e s).trace = s.trace :=
  rfl
@[simp] theorem recordCause_ext (e : Event) (s : State) : (recordCause e s).ext = s.ext :=
  rfl
@[simp] theorem recordCause_mem (e : Event) (s : State) : (recordCause e s).mem = s.mem :=
  rfl
@[simp] theorem recordCause_draws (e : Event) (s : State) : (recordCause e s).draws = s.draws :=
  rfl
@[simp] theorem recordCause_syncedA (e : Event) (s : State) : (recordCause e s).syncedA = s.syncedA :=
  rfl
@[simp] theorem recordCause_syncedB (e : Event) (s : State) : (recordCause e s).syncedB = s.syncedB :=
  rfl
@[simp] theorem recordCause_nmbrkTaken (e : Event) (s : State) : (recordCause e s).nmbrkTaken = s.nmbrkTaken :=
  rfl

@[simp] theorem recordInDebug_gpr (e : Event) (s : State) : (recordInDebug e s).cpu.gpr = s.cpu.gpr :=
  rfl
@[simp] theorem recordInDebug_pc (e : Event) (s : State) : (recordInDebug e s).cpu.pc = s.cpu.pc :=
  rfl
@[simp] theorem recordInDebug_msr (e : Event) (s : State) : (recordInDebug e s).cpu.msr = s.cpu.msr :=
  rfl
@[simp] theorem recordInDebug_srr0 (e : Event) (s : State) : (recordInDebug e s).cpu.srr0 = s.cpu.srr0 :=
  rfl
@[simp] theorem recordInDebug_srr1 (e : Event) (s : State) : (recordInDebug e s).cpu.srr1 = s.cpu.srr1 :=
  rfl
@[simp] theorem recordInDebug_dar (e : Event) (s : State) : (recordInDebug e s).cpu.dar = s.cpu.dar :=
  rfl
@[simp] theorem recordInDebug_dsisr (e : Event) (s : State) : (recordInDebug e s).cpu.dsisr = s.cpu.dsisr :=
  rfl
@[simp] theorem recordInDebug_checkStop (e : Event) (s : State) : (recordInDebug e s).cpu.checkStop = s.cpu.checkStop :=
  rfl
@[simp] theorem recordInDebug_wait (e : Event) (s : State) : (recordInDebug e s).cpu.wait = s.cpu.wait :=
  rfl
@[simp] theorem recordInDebug_dpir (e : Event) (s : State) : (recordInDebug e s).cpu.dpir = s.cpu.dpir :=
  rfl
@[simp] theorem recordInDebug_flight (e : Event) (s : State) : (recordInDebug e s).cpu.flight = s.cpu.flight :=
  rfl
@[simp] theorem recordInDebug_dev (e : Event) (s : State) : (recordInDebug e s).dev = { s.dev with ecr := s.dev.ecr ||| eventMask e } :=
  rfl
@[simp] theorem recordInDebug_mode (e : Event) (s : State) : (recordInDebug e s).mode = s.mode :=
  rfl
@[simp] theorem recordInDebug_port (e : Event) (s : State) : (recordInDebug e s).port = { s.port with pInt := true } :=
  rfl
@[simp] theorem recordInDebug_trace (e : Event) (s : State) : (recordInDebug e s).trace = s.trace :=
  rfl
@[simp] theorem recordInDebug_ext (e : Event) (s : State) : (recordInDebug e s).ext = s.ext :=
  rfl
@[simp] theorem recordInDebug_mem (e : Event) (s : State) : (recordInDebug e s).mem = s.mem :=
  rfl
@[simp] theorem recordInDebug_draws (e : Event) (s : State) : (recordInDebug e s).draws = s.draws :=
  rfl
@[simp] theorem recordInDebug_syncedA (e : Event) (s : State) : (recordInDebug e s).syncedA = s.syncedA :=
  rfl
@[simp] theorem recordInDebug_syncedB (e : Event) (s : State) : (recordInDebug e s).syncedB = s.syncedB :=
  rfl
@[simp] theorem recordInDebug_nmbrkTaken (e : Event) (s : State) : (recordInDebug e s).nmbrkTaken = s.nmbrkTaken :=
  rfl

@[simp] theorem reportType_gpr (c : BitVec 3) (s : State) : (reportType c s).cpu.gpr = s.cpu.gpr :=
  by unfold reportType; split <;> rfl
@[simp] theorem reportType_pc (c : BitVec 3) (s : State) : (reportType c s).cpu.pc = s.cpu.pc :=
  by unfold reportType; split <;> rfl
@[simp] theorem reportType_msr (c : BitVec 3) (s : State) : (reportType c s).cpu.msr = s.cpu.msr :=
  by unfold reportType; split <;> rfl
@[simp] theorem reportType_srr0 (c : BitVec 3) (s : State) : (reportType c s).cpu.srr0 = s.cpu.srr0 :=
  by unfold reportType; split <;> rfl
@[simp] theorem reportType_srr1 (c : BitVec 3) (s : State) : (reportType c s).cpu.srr1 = s.cpu.srr1 :=
  by unfold reportType; split <;> rfl
@[simp] theorem reportType_dar (c : BitVec 3) (s : State) : (reportType c s).cpu.dar = s.cpu.dar :=
  by unfold reportType; split <;> rfl
@[simp] theorem reportType_dsisr (c : BitVec 3) (s : State) : (reportType c s).cpu.dsisr = s.cpu.dsisr :=
  by unfold reportType; split <;> rfl
@[simp] theorem reportType_checkStop (c : BitVec 3) (s : State) : (reportType c s).cpu.checkStop = s.cpu.checkStop :=
  by unfold reportType; split <;> rfl
@[simp] theorem reportType_wait (c : BitVec 3) (s : State) : (reportType c s).cpu.wait = s.cpu.wait :=
  by unfold reportType; split <;> rfl
@[simp] theorem reportType_dpir (c : BitVec 3) (s : State) : (reportType c s).cpu.dpir = s.cpu.dpir :=
  by unfold reportType; split <;> rfl
@[simp] theorem reportType_flight (c : BitVec 3) (s : State) : (reportType c s).cpu.flight = s.cpu.flight :=
  by unfold reportType; split <;> rfl
@[simp] theorem reportType_dev (c : BitVec 3) (s : State) : (reportType c s).dev = s.dev :=
  by unfold reportType; split <;> rfl
@[simp] theorem reportType_mode (c : BitVec 3) (s : State) : (reportType c s).mode = s.mode :=
  by unfold reportType; split <;> rfl
@[simp] theorem reportType_port (c : BitVec 3) (s : State) : (reportType c s).port = s.port :=
  by unfold reportType; split <;> rfl
@[simp] theorem reportType_ext (c : BitVec 3) (s : State) : (reportType c s).ext = s.ext :=
  by unfold reportType; split <;> rfl
@[simp] theorem reportType_mem (c : BitVec 3) (s : State) : (reportType c s).mem = s.mem :=
  by unfold reportType; split <;> rfl
@[simp] theorem reportType_draws (c : BitVec 3) (s : State) : (reportType c s).draws = s.draws :=
  by unfold reportType; split <;> rfl
@[simp] theorem reportType_syncedA (c : BitVec 3) (s : State) : (reportType c s).syncedA = s.syncedA :=
  by unfold reportType; split <;> rfl
@[simp] theorem reportType_syncedB (c : BitVec 3) (s : State) : (reportType c s).syncedB = s.syncedB :=
  by unfold reportType; split <;> rfl
@[simp] theorem reportType_nmbrkTaken (c : BitVec 3) (s : State) : (reportType c s).nmbrkTaken = s.nmbrkTaken :=
  by unfold reportType; split <;> rfl

@[simp] theorem markNext_gpr (m : FetchMark) (s : State) : (markNext m s).cpu.gpr = s.cpu.gpr :=
  by unfold markNext; split <;> rfl
@[simp] theorem markNext_pc (m : FetchMark) (s : State) : (markNext m s).cpu.pc = s.cpu.pc :=
  by unfold markNext; split <;> rfl
@[simp] theorem markNext_msr (m : FetchMark) (s : State) : (markNext m s).cpu.msr = s.cpu.msr :=
  by unfold markNext; split <;> rfl
@[simp] theorem markNext_srr0 (m : FetchMark) (s : State) : (markNext m s).cpu.srr0 = s.cpu.srr0 :=
  by unfold markNext; split <;> rfl
@[simp] theorem markNext_srr1 (m : FetchMark) (s : State) : (markNext m s).cpu.srr1 = s.cpu.srr1 :=
  by unfold markNext; split <;> rfl
@[simp] theorem markNext_dar (m : FetchMark) (s : State) : (markNext m s).cpu.dar = s.cpu.dar :=
  by unfold markNext; split <;> rfl
@[simp] theorem markNext_dsisr (m : FetchMark) (s : State) : (markNext m s).cpu.dsisr = s.cpu.dsisr :=
  by unfold markNext; split <;> rfl
@[simp] theorem markNext_checkStop (m : FetchMark) (s : State) : (markNext m s).cpu.checkStop = s.cpu.checkStop :=
  by unfold markNext; split <;> rfl
@[simp] theorem markNext_wait (m : FetchMark) (s : State) : (markNext m s).cpu.wait = s.cpu.wait :=
  by unfold markNext; split <;> rfl
@[simp] theorem markNext_dpir (m : FetchMark) (s : State) : (markNext m s).cpu.dpir = s.cpu.dpir :=
  by unfold markNext; split <;> rfl
@[simp] theorem markNext_flight (m : FetchMark) (s : State) : (markNext m s).cpu.flight = s.cpu.flight :=
  by unfold markNext; split <;> rfl
@[simp] theorem markNext_dev (m : FetchMark) (s : State) : (markNext m s).dev = s.dev :=
  by unfold markNext; split <;> rfl
@[simp] theorem markNext_mode (m : FetchMark) (s : State) : (markNext m s).mode = s.mode :=
  by unfold markNext; split <;> rfl
@[simp] theorem markNext_port (m : FetchMark) (s : State) : (markNext m s).port = s.port :=
  by unfold markNext; split <;> rfl
@[simp] theorem markNext_ext (m : FetchMark) (s : State) : (markNext m s).ext = s.ext :=
  by unfold markNext; split <;> rfl
@[simp] theorem markNext_mem (m : FetchMark) (s : State) : (markNext m s).mem = s.mem :=
  by unfold markNext; split <;> rfl
@[simp] theorem markNext_draws (m : FetchMark) (s : State) : (markNext m s).draws = s.draws :=
  by unfold markNext; split <;> rfl
@[simp] theorem markNext_syncedA (m : FetchMark) (s : State) : (markNext m s).syncedA = s.syncedA :=
  by unfold markNext; split <;> rfl
@[simp] theorem markNext_syncedB (m : FetchMark) (s : State) : (markNext m s).syncedB = s.syncedB :=
  by unfold markNext; split <;> rfl
@[simp] theorem markNext_nmbrkTaken (m : FetchMark) (s : State) : (markNext m s).nmbrkTaken = s.nmbrkTaken :=
  by unfold markNext; split <;> rfl

@[simp] theorem completeSequential_gpr (s : State) : (completeSequential s).cpu.gpr = s.cpu.gpr :=
  by simp [completeSequential]
@[simp] theorem completeSequential_pc (s : State) : (completeSequential s).cpu.pc = s.cpu.pc + 4#32 :=
  by simp [completeSequential]
@[simp] theorem completeSequential_msr (s : State) : (completeSequential s).cpu.msr = s.cpu.msr :=
  by simp [completeSequential]
@[simp] theorem completeSequential_srr0 (s : State) : (completeSequential s).cpu.srr0 = s.cpu.srr0 :=
  by simp [completeSequential]
@[simp] theorem completeSequential_srr1 (s : State) : (completeSequential s).cpu.srr1 = s.cpu.srr1 :=
  by simp [completeSequential]
@[simp] theorem completeSequential_dar (s : State) : (completeSequential s).cpu.dar = s.cpu.dar :=
  by simp [completeSequential]
@[simp] theorem completeSequential_dsisr (s : State) : (completeSequential s).cpu.dsisr = s.cpu.dsisr :=
  by simp [completeSequential]
@[simp] theorem completeSequential_checkStop (s : State) : (completeSequential s).cpu.checkStop = s.cpu.checkStop :=
  by simp [completeSequential]
@[simp] theorem completeSequential_wait (s : State) : (completeSequential s).cpu.wait = s.cpu.wait :=
  by simp [completeSequential]
@[simp] theorem completeSequential_dpir (s : State) : (completeSequential s).cpu.dpir = s.cpu.dpir :=
  by simp [completeSequential]
@[simp] theorem completeSequential_flight (s : State) : (completeSequential s).cpu.flight = s.cpu.flight :=
  by simp [completeSequential]
@[simp] theorem completeSequential_dev (s : State) : (completeSequential s).dev = s.dev :=
  by simp [completeSequential]
@[simp] theorem completeSequential_mode (s : State) : (completeSequential s).mode = s.mode :=
  by simp [completeSequential]
@[simp] theorem completeSequential_port (s : State) : (completeSequential s).port = s.port :=
  by simp [completeSequential]
@[simp] theorem completeSequential_ext (s : State) : (completeSequential s).ext = s.ext :=
  by simp [completeSequential]
@[simp] theorem completeSequential_mem (s : State) : (completeSequential s).mem = s.mem :=
  by simp [completeSequential]
@[simp] theorem completeSequential_draws (s : State) : (completeSequential s).draws = s.draws :=
  by simp [completeSequential]
@[simp] theorem completeSequential_syncedA (s : State) : (completeSequential s).syncedA = s.syncedA :=
  by simp [completeSequential]
@[simp] theorem completeSequential_syncedB (s : State) : (completeSequential s).syncedB = s.syncedB :=
  by simp [completeSequential]
@[simp] theorem completeSequential_nmbrkTaken (s : State) : (completeSequential s).nmbrkTaken = s.nmbrkTaken :=
  by simp [completeSequential]

@[simp] theorem completeMarked_gpr (s : State) : (completeMarked s).cpu.gpr = s.cpu.gpr :=
  by simp [completeMarked]
@[simp] theorem completeMarked_pc (s : State) : (completeMarked s).cpu.pc = s.cpu.pc + 4#32 :=
  by simp [completeMarked]
@[simp] theorem completeMarked_msr (s : State) : (completeMarked s).cpu.msr = s.cpu.msr :=
  by simp [completeMarked]
@[simp] theorem completeMarked_srr0 (s : State) : (completeMarked s).cpu.srr0 = s.cpu.srr0 :=
  by simp [completeMarked]
@[simp] theorem completeMarked_srr1 (s : State) : (completeMarked s).cpu.srr1 = s.cpu.srr1 :=
  by simp [completeMarked]
@[simp] theorem completeMarked_dar (s : State) : (completeMarked s).cpu.dar = s.cpu.dar :=
  by simp [completeMarked]
@[simp] theorem completeMarked_dsisr (s : State) : (completeMarked s).cpu.dsisr = s.cpu.dsisr :=
  by simp [completeMarked]
@[simp] theorem completeMarked_checkStop (s : State) : (completeMarked s).cpu.checkStop = s.cpu.checkStop :=
  by simp [completeMarked]
@[simp] theorem completeMarked_wait (s : State) : (completeMarked s).cpu.wait = s.cpu.wait :=
  by simp [completeMarked]
@[simp] theorem completeMarked_dpir (s : State) : (completeMarked s).cpu.dpir = s.cpu.dpir :=
  by simp [completeMarked]
@[simp] theorem completeMarked_flight (s : State) : (completeMarked s).cpu.flight = s.cpu.flight :=
  by simp [completeMarked]
@[simp] theorem completeMarked_dev (s : State) : (completeMarked s).dev = s.dev :=
  by simp [completeMarked]
@[simp] theorem completeMarked_mode (s : State) : (completeMarked s).mode = s.mode :=
  by simp [completeMarked]
@[simp] theorem completeMarked_port (s : State) : (completeMarked s).port = s.port :=
  by simp [completeMarked]
@[simp] theorem completeMarked_ext (s : State) : (completeMarked s).ext = s.ext :=
  by simp [completeMarked]
@[simp] theorem completeMarked_mem (s : State) : (completeMarked s).mem = s.mem :=
  by simp [completeMarked]
@[simp] theorem completeMarked_draws (s : State) : (completeMarked s).draws = s.draws :=
  by simp [completeMarked]
@[simp] theorem completeMarked_syncedA (s : State) : (completeMarked s).syncedA = s.syncedA :=
  by simp [completeMarked]
@[simp] theorem completeMarked_syncedB (s : State) : (completeMarked s).syncedB = s.syncedB :=
  by simp [completeMarked]
@[simp] theorem completeMarked_nmbrkTaken (s : State) : (completeMarked s).nmbrkTaken = s.nmbrkTaken :=
  by simp [completeMarked]

@[simp] theorem completeMaybeMarked_gpr (s : State) : (completeMaybeMarked s).cpu.gpr = s.cpu.gpr :=
  by unfold completeMaybeMarked; split <;> simp
@[simp] theorem completeMaybeMarked_pc (s : State) : (completeMaybeMarked s).cpu.pc = s.cpu.pc + 4#32 :=
  by unfold completeMaybeMarked; split <;> simp
@[simp] theorem completeMaybeMarked_msr (s : State) : (completeMaybeMarked s).cpu.msr = s.cpu.msr :=
  by unfold completeMaybeMarked; split <;> simp
@[simp] theorem completeMaybeMarked_srr0 (s : State) : (completeMaybeMarked s).cpu.srr0 = s.cpu.srr0 :=
  by unfold completeMaybeMarked; split <;> simp
@[simp] theorem completeMaybeMarked_srr1 (s : State) : (completeMaybeMarked s).cpu.srr1 = s.cpu.srr1 :=
  by unfold completeMaybeMarked; split <;> simp
@[simp] theorem completeMaybeMarked_dar (s : State) : (completeMaybeMarked s).cpu.dar = s.cpu.dar :=
  by unfold completeMaybeMarked; split <;> simp
@[simp] theorem completeMaybeMarked_dsisr (s : State) : (completeMaybeMarked s).cpu.dsisr = s.cpu.dsisr :=
  by unfold completeMaybeMarked; split <;> simp
@[simp] theorem completeMaybeMarked_checkStop (s : State) : (completeMaybeMarked s).cpu.checkStop = s.cpu.checkStop :=
  by unfold completeMaybeMarked; split <;> simp
@[simp] theorem completeMaybeMarked_wait (s : State) : (completeMaybeMarked s).cpu.wait = s.cpu.wait :=
  by unfold completeMaybeMarked; split <;> simp
@[simp] theorem completeMaybeMarked_dpir (s : State) : (completeMaybeMarked s).cpu.dpir = s.cpu.dpir :=
  by unfold completeMaybeMarked; split <;> simp
@[simp] theorem completeMaybeMarked_flight (s : State) : (completeMaybeMarked s).cpu.flight = s.cpu.flight :=
  by unfold completeMaybeMarked; split <;> simp
@[simp] theorem completeMaybeMarked_dev (s : State) : (completeMaybeMarked s).dev = s.dev :=
  by unfold completeMaybeMarked; split <;> simp
@[simp] theorem completeMaybeMarked_mode (s : State) : (completeMaybeMarked s).mode = s.mode :=
  by unfold completeMaybeMarked; split <;> simp
@[simp] theorem completeMaybeMarked_port (s : State) : (completeMaybeMarked s).port = s.port :=
  by unfold completeMaybeMarked; split <;> simp
@[simp] theorem completeMaybeMarked_ext (s : State) : (completeMaybeMarked s).ext = s.ext :=
  by unfold completeMaybeMarked; split <;> simp
@[simp] theorem completeMaybeMarked_mem (s : State) : (completeMaybeMarked s).mem = s.mem :=
  by unfold completeMaybeMarked; split <;> simp
@[simp] theorem completeMaybeMarked_syncedA (s : State) : (completeMaybeMarked s).syncedA = s.syncedA :=
  by unfold completeMaybeMarked; split <;> simp
@[simp] theorem completeMaybeMarked_syncedB (s : State) : (completeMaybeMarked s).syncedB = s.syncedB :=
  by unfold completeMaybeMarked; split <;> simp
@[simp] theorem completeMaybeMarked_nmbrkTaken (s : State) : (completeMaybeMarked s).nmbrkTaken = s.nmbrkTaken :=
  by unfold completeMaybeMarked; split <;> simp

@[simp] theorem regularException_gpr (e : Event) (srr0 : Word) (s : State) : (regularException e srr0 s).cpu.gpr = s.cpu.gpr :=
  by simp [regularException]
@[simp] theorem regularException_pc (e : Event) (srr0 : Word) (s : State) : (regularException e srr0 s).cpu.pc = vectorOf e s.cpu.msr :=
  by simp [regularException]
@[simp] theorem regularException_msr (e : Event) (srr0 : Word) (s : State) : (regularException e srr0 s).cpu.msr = msrAfterException e s.cpu.msr :=
  by simp [regularException]
@[simp] theorem regularException_srr0 (e : Event) (srr0 : Word) (s : State) : (regularException e srr0 s).cpu.srr0 = srr0 :=
  by simp [regularException]
@[simp] theorem regularException_srr1 (e : Event) (srr0 : Word) (s : State) : (regularException e srr0 s).cpu.srr1 = srr1Image (some e) s.cpu.msr :=
  by simp [regularException]
@[simp] theorem regularException_dar (e : Event) (srr0 : Word) (s : State) : (regularException e srr0 s).cpu.dar = s.cpu.dar :=
  by simp [regularException]
@[simp] theorem regularException_dsisr (e : Event) (srr0 : Word) (s : State) : (regularException e srr0 s).cpu.dsisr = s.cpu.dsisr :=
  by simp [regularException]
@[simp] theorem regularException_checkStop (e : Event) (srr0 : Word) (s : State) : (regularException e srr0 s).cpu.checkStop = s.cpu.checkStop :=
  by simp [regularException]
@[simp] theorem regularException_wait (e : Event) (srr0 : Word) (s : State) : (regularException e srr0 s).cpu.wait = s.cpu.wait :=
  by simp [regularException]
@[simp] theorem regularException_dpir (e : Event) (srr0 : Word) (s : State) : (regularException e srr0 s).cpu.dpir = s.cpu.dpir :=
  by simp [regularException]
@[simp] theorem regularException_flight (e : Event) (srr0 : Word) (s : State) : (regularException e srr0 s).cpu.flight = s.cpu.flight :=
  by simp [regularException]
@[simp] theorem regularException_dev (e : Event) (srr0 : Word) (s : State) : (regularException e srr0 s).dev = s.dev :=
  by simp [regularException]
@[simp] theorem regularException_mode (e : Event) (srr0 : Word) (s : State) : (regularException e srr0 s).mode = s.mode :=
  by simp [regularException]
@[simp] theorem regularException_port (e : Event) (srr0 : Word) (s : State) : (regularException e srr0 s).port = s.port :=
  by simp [regularException]
@[simp] theorem regularException_ext (e : Event) (srr0 : Word) (s : State) : (regularException e srr0 s).ext = s.ext :=
  by simp [regularException]
@[simp] theorem regularException_mem (e : Event) (srr0 : Word) (s : State) : (regularException e srr0 s).mem = s.mem :=
  by simp [regularException]
@[simp] theorem regularException_draws (e : Event) (srr0 : Word) (s : State) : (regularException e srr0 s).draws = s.draws :=
  by simp [regularException]
@[simp] theorem regularException_syncedA (e : Event) (srr0 : Word) (s : State) : (regularException e srr0 s).syncedA = s.syncedA :=
  by simp [regularException]
@[simp] theorem regularException_syncedB (e : Event) (srr0 : Word) (s : State) : (regularException e srr0 s).syncedB = s.syncedB :=
  by simp [regularException]
@[simp] theorem regularException_nmbrkTaken (e : Event) (srr0 : Word) (s : State) : (regularException e srr0 s).nmbrkTaken = s.nmbrkTaken :=
  by simp [regularException]

@[simp] theorem enterDebug_gpr (e : Option Event) (srr0 : Word) (s : State) : (enterDebug e srr0 s).cpu.gpr = s.cpu.gpr :=
  rfl
@[simp] theorem enterDebug_pc (e : Option Event) (srr0 : Word) (s : State) : (enterDebug e srr0 s).cpu.pc = s.cpu.pc :=
  rfl
@[simp] theorem enterDebug_msr (e : Option Event) (srr0 : Word) (s : State) : (enterDebug e srr0 s).cpu.msr = msrAfterDebugEntry e s.cpu.msr :=
  rfl
@[simp] theorem enterDebug_srr0 (e : Option Event) (srr0 : Word) (s : State) : (enterDebug e srr0 s).cpu.srr0 = srr0 :=
  rfl
@[simp] theorem enterDebug_srr1 (e : Option Event) (srr0 : Word) (s : State) : (enterDebug e srr0 s).cpu.srr1 = srr1Image e s.cpu.msr :=
  rfl
@[simp] theorem enterDebug_dar (e : Option Event) (srr0 : Word) (s : State) : (enterDebug e srr0 s).cpu.dar = s.cpu.dar :=
  rfl
@[simp] theorem enterDebug_dsisr (e : Option Event) (srr0 : Word) (s : State) : (enterDebug e srr0 s).cpu.dsisr = s.cpu.dsisr :=
  rfl
@[simp] theorem enterDebug_checkStop (e : Option Event) (srr0 : Word) (s : State) : (enterDebug e srr0 s).cpu.checkStop = s.cpu.checkStop :=
  rfl
@[simp] theorem enterDebug_wait (e : Option Event) (srr0 : Word) (s : State) : (enterDebug e srr0 s).cpu.wait = CpuWait.instr :=
  rfl
@[simp] theorem enterDebug_dpir (e : Option Event) (srr0 : Word) (s : State) : (enterDebug e srr0 s).cpu.dpir = s.cpu.dpir :=
  rfl
@[simp] theorem enterDebug_flight (e : Option Event) (srr0 : Word) (s : State) : (enterDebug e srr0 s).cpu.flight = s.cpu.flight :=
  rfl
@[simp] theorem enterDebug_dev (e : Option Event) (srr0 : Word) (s : State) : (enterDebug e srr0 s).dev = s.dev :=
  rfl
@[simp] theorem enterDebug_mode (e : Option Event) (srr0 : Word) (s : State) : (enterDebug e srr0 s).mode = { s.mode with dm := true, frz := true } :=
  rfl
@[simp] theorem enterDebug_port (e : Option Event) (srr0 : Word) (s : State) : (enterDebug e srr0 s).port = s.port :=
  rfl
@[simp] theorem enterDebug_ext (e : Option Event) (srr0 : Word) (s : State) : (enterDebug e srr0 s).ext = s.ext :=
  rfl
@[simp] theorem enterDebug_mem (e : Option Event) (srr0 : Word) (s : State) : (enterDebug e srr0 s).mem = s.mem :=
  rfl
@[simp] theorem enterDebug_draws (e : Option Event) (srr0 : Word) (s : State) : (enterDebug e srr0 s).draws = s.draws + 1 :=
  rfl
@[simp] theorem enterDebug_syncedA (e : Option Event) (srr0 : Word) (s : State) : (enterDebug e srr0 s).syncedA = s.syncedA :=
  rfl
@[simp] theorem enterDebug_syncedB (e : Option Event) (srr0 : Word) (s : State) : (enterDebug e srr0 s).syncedB = s.syncedB :=
  rfl
@[simp] theorem enterDebug_nmbrkTaken (e : Option Event) (srr0 : Word) (s : State) : (enterDebug e srr0 s).nmbrkTaken = s.nmbrkTaken :=
  rfl

@[simp] theorem restoreContext_gpr (s : State) : (restoreContext s).cpu.gpr = s.cpu.gpr :=
  rfl
@[simp] theorem restoreContext_pc (s : State) : (restoreContext s).cpu.pc = s.cpu.srr0.extractLsb' 2 30 ++ 0#2 :=
  rfl
@[simp] theorem restoreContext_msr (s : State) : (restoreContext s).cpu.msr = msrFromSrr1 s.cpu.srr1 s.cpu.msr :=
  rfl
@[simp] theorem restoreContext_srr0 (s : State) : (restoreContext s).cpu.srr0 = s.cpu.srr0 :=
  rfl
@[simp] theorem restoreContext_srr1 (s : State) : (restoreContext s).cpu.srr1 = s.cpu.srr1 :=
  rfl
@[simp] theorem restoreContext_dar (s : State) : (restoreContext s).cpu.dar = s.cpu.dar :=
  rfl
@[simp] theorem restoreContext_dsisr (s : State) : (restoreContext s).cpu.dsisr = s.cpu.dsisr :=
  rfl
@[simp] theorem restoreContext_checkStop (s : State) : (restoreContext s).cpu.checkStop = s.cpu.checkStop :=
  rfl
@[simp] theorem restoreContext_wait (s : State) : (restoreContext s).cpu.wait = s.cpu.wait :=
  rfl
@[simp] theorem restoreContext_dpir (s : State) : (restoreContext s).cpu.dpir = s.cpu.dpir :=
  rfl
@[simp] theorem restoreContext_flight (s : State) : (restoreContext s).cpu.flight = s.cpu.flight :=
  rfl
@[simp] theorem restoreContext_dev (s : State) : (restoreContext s).dev = s.dev :=
  rfl
@[simp] theorem restoreContext_mode (s : State) : (restoreContext s).mode = { s.mode with frz := s.mode.frz && causePending s } :=
  rfl
@[simp] theorem restoreContext_port (s : State) : (restoreContext s).port = s.port :=
  rfl
@[simp] theorem restoreContext_trace (s : State) : (restoreContext s).trace = s.trace :=
  rfl
@[simp] theorem restoreContext_ext (s : State) : (restoreContext s).ext = s.ext :=
  rfl
@[simp] theorem restoreContext_mem (s : State) : (restoreContext s).mem = s.mem :=
  rfl
@[simp] theorem restoreContext_draws (s : State) : (restoreContext s).draws = s.draws :=
  rfl
@[simp] theorem restoreContext_syncedA (s : State) : (restoreContext s).syncedA = s.syncedA :=
  rfl
@[simp] theorem restoreContext_syncedB (s : State) : (restoreContext s).syncedB = s.syncedB :=
  rfl
@[simp] theorem restoreContext_nmbrkTaken (s : State) : (restoreContext s).nmbrkTaken = s.nmbrkTaken :=
  rfl

@[simp] theorem leaveDebug_gpr (s : State) : (leaveDebug s).cpu.gpr = s.cpu.gpr :=
  by simp [leaveDebug]
@[simp] theorem leaveDebug_pc (s : State) : (leaveDebug s).cpu.pc = s.cpu.pc :=
  by simp [leaveDebug]
@[simp] theorem leaveDebug_msr (s : State) : (leaveDebug s).cpu.msr = s.cpu.msr :=
  by simp [leaveDebug]
@[simp] theorem leaveDebug_srr0 (s : State) : (leaveDebug s).cpu.srr0 = s.cpu.srr0 :=
  by simp [leaveDebug]
@[simp] theorem leaveDebug_srr1 (s : State) : (leaveDebug s).cpu.srr1 = s.cpu.srr1 :=
  by simp [leaveDebug]
@[simp] theorem leaveDebug_dar (s : State) : (leaveDebug s).cpu.dar = s.cpu.dar :=
  by simp [leaveDebug]
@[simp] theorem leaveDebug_dsisr (s : State) : (leaveDebug s).cpu.dsisr = s.cpu.dsisr :=
  by simp [leaveDebug]
@[simp] theorem leaveDebug_checkStop (s : State) : (leaveDebug s).cpu.checkStop = s.cpu.checkStop :=
  by simp [leaveDebug]
@[simp] theorem leaveDebug_wait (s : State) : (leaveDebug s).cpu.wait = CpuWait.none :=
  by simp [leaveDebug]
@[simp] theorem leaveDebug_dpir (s : State) : (leaveDebug s).cpu.dpir = s.cpu.dpir :=
  by simp [leaveDebug]
@[simp] theorem leaveDebug_flight (s : State) : (leaveDebug s).cpu.flight = s.cpu.flight :=
  by simp [leaveDebug]
@[simp] theorem leaveDebug_dev (s : State) : (leaveDebug s).dev = s.dev :=
  by simp [leaveDebug]
@[simp] theorem leaveDebug_mode (s : State) : (leaveDebug s).mode = { s.mode with dm := false } :=
  by simp [leaveDebug]
@[simp] theorem leaveDebug_port (s : State) : (leaveDebug s).port = s.port :=
  by simp [leaveDebug]
@[simp] theorem leaveDebug_ext (s : State) : (leaveDebug s).ext = s.ext :=
  by simp [leaveDebug]
@[simp] theorem leaveDebug_mem (s : State) : (leaveDebug s).mem = s.mem :=
  by simp [leaveDebug]
@[simp] theorem leaveDebug_draws (s : State) : (leaveDebug s).draws = s.draws :=
  by simp [leaveDebug]
@[simp] theorem leaveDebug_syncedA (s : State) : (leaveDebug s).syncedA = s.syncedA :=
  by simp [leaveDebug]
@[simp] theorem leaveDebug_syncedB (s : State) : (leaveDebug s).syncedB = s.syncedB :=
  by simp [leaveDebug]
@[simp] theorem leaveDebug_nmbrkTaken (s : State) : (leaveDebug s).nmbrkTaken = s.nmbrkTaken :=
  by simp [leaveDebug]

@[simp] theorem vsyncEvent_gpr (s : State) : (vsyncEvent s).cpu.gpr = s.cpu.gpr :=
  by simp [vsyncEvent]
@[simp] theorem vsyncEvent_pc (s : State) : (vsyncEvent s).cpu.pc = s.cpu.pc :=
  by simp [vsyncEvent]
@[simp] theorem vsyncEvent_msr (s : State) : (vsyncEvent s).cpu.msr = s.cpu.msr :=
  by simp [vsyncEvent]
@[simp] theorem vsyncEvent_srr0 (s : State) : (vsyncEvent s).cpu.srr0 = s.cpu.srr0 :=
  by simp [vsyncEvent]
@[simp] theorem vsyncEvent_srr1 (s : State) : (vsyncEvent s).cpu.srr1 = s.cpu.srr1 :=
  by simp [vsyncEvent]
@[simp] theorem vsyncEvent_dar (s : State) : (vsyncEvent s).cpu.dar = s.cpu.dar :=
  by simp [vsyncEvent]
@[simp] theorem vsyncEvent_dsisr (s : State) : (vsyncEvent s).cpu.dsisr = s.cpu.dsisr :=
  by simp [vsyncEvent]
@[simp] theorem vsyncEvent_checkStop (s : State) : (vsyncEvent s).cpu.checkStop = s.cpu.checkStop :=
  by simp [vsyncEvent]
@[simp] theorem vsyncEvent_wait (s : State) : (vsyncEvent s).cpu.wait = s.cpu.wait :=
  by simp [vsyncEvent]
@[simp] theorem vsyncEvent_dpir (s : State) : (vsyncEvent s).cpu.dpir = s.cpu.dpir :=
  by simp [vsyncEvent]
@[simp] theorem vsyncEvent_flight (s : State) : (vsyncEvent s).cpu.flight = s.cpu.flight :=
  by simp [vsyncEvent]
@[simp] theorem vsyncEvent_dev (s : State) : (vsyncEvent s).dev = s.dev :=
  by simp [vsyncEvent]
@[simp] theorem vsyncEvent_mode (s : State) : (vsyncEvent s).mode = s.mode :=
  by simp [vsyncEvent]
@[simp] theorem vsyncEvent_port (s : State) : (vsyncEvent s).port = s.port :=
  by simp [vsyncEvent]
@[simp] theorem vsyncEvent_ext (s : State) : (vsyncEvent s).ext = s.ext :=
  by simp [vsyncEvent]
@[simp] theorem vsyncEvent_mem (s : State) : (vsyncEvent s).mem = s.mem :=
  by simp [vsyncEvent]
@[simp] theorem vsyncEvent_draws (s : State) : (vsyncEvent s).draws = s.draws :=
  by simp [vsyncEvent]
@[simp] theorem vsyncEvent_syncedA (s : State) : (vsyncEvent s).syncedA = s.syncedA :=
  by simp [vsyncEvent]
@[simp] theorem vsyncEvent_syncedB (s : State) : (vsyncEvent s).syncedB = s.syncedB :=
  by simp [vsyncEvent]
@[simp] theorem vsyncEvent_nmbrkTaken (s : State) : (vsyncEvent s).nmbrkTaken = s.nmbrkTaken :=
  by simp [vsyncEvent]

@[simp] theorem reportHeldVsync_gpr (s : State) : (reportHeldVsync s).cpu.gpr = s.cpu.gpr :=
  by unfold reportHeldVsync; split <;> simp
@[simp] theorem reportHeldVsync_pc (s : State) : (reportHeldVsync s).cpu.pc = s.cpu.pc :=
  by unfold reportHeldVsync; split <;> simp
@[simp] theorem reportHeldVsync_msr (s : State) : (reportHeldVsync s).cpu.msr = s.cpu.msr :=
  by unfold reportHeldVsync; split <;> simp
@[simp] theorem reportHeldVsync_srr0 (s : State) : (reportHeldVsync s).cpu.srr0 = s.cpu.srr0 :=
  by unfold reportHeldVsync; split <;> simp
@[simp] theorem reportHeldVsync_srr1 (s : State) : (reportHeldVsync s).cpu.srr1 = s.cpu.srr1 :=
  by unfold reportHeldVsync; split <;> simp
@[simp] theorem reportHeldVsync_dar (s : State) : (reportHeldVsync s).cpu.dar = s.cpu.dar :=
  by unfold reportHeldVsync; split <;> simp
@[simp] theorem reportHeldVsync_dsisr (s : State) : (reportHeldVsync s).cpu.dsisr = s.cpu.dsisr :=
  by unfold reportHeldVsync; split <;> simp
@[simp] theorem reportHeldVsync_checkStop (s : State) : (reportHeldVsync s).cpu.checkStop = s.cpu.checkStop :=
  by unfold reportHeldVsync; split <;> simp
@[simp] theorem reportHeldVsync_wait (s : State) : (reportHeldVsync s).cpu.wait = s.cpu.wait :=
  by unfold reportHeldVsync; split <;> simp
@[simp] theorem reportHeldVsync_dpir (s : State) : (reportHeldVsync s).cpu.dpir = s.cpu.dpir :=
  by unfold reportHeldVsync; split <;> simp
@[simp] theorem reportHeldVsync_flight (s : State) : (reportHeldVsync s).cpu.flight = s.cpu.flight :=
  by unfold reportHeldVsync; split <;> simp
@[simp] theorem reportHeldVsync_dev (s : State) : (reportHeldVsync s).dev = s.dev :=
  by unfold reportHeldVsync; split <;> simp
@[simp] theorem reportHeldVsync_mode (s : State) : (reportHeldVsync s).mode = s.mode :=
  by unfold reportHeldVsync; split <;> simp
@[simp] theorem reportHeldVsync_port (s : State) : (reportHeldVsync s).port = s.port :=
  by unfold reportHeldVsync; split <;> simp
@[simp] theorem reportHeldVsync_ext (s : State) : (reportHeldVsync s).ext = s.ext :=
  by unfold reportHeldVsync; split <;> simp
@[simp] theorem reportHeldVsync_mem (s : State) : (reportHeldVsync s).mem = s.mem :=
  by unfold reportHeldVsync; split <;> simp
@[simp] theorem reportHeldVsync_draws (s : State) : (reportHeldVsync s).draws = s.draws :=
  by unfold reportHeldVsync; split <;> simp
@[simp] theorem reportHeldVsync_syncedA (s : State) : (reportHeldVsync s).syncedA = s.syncedA :=
  by unfold reportHeldVsync; split <;> simp
@[simp] theorem reportHeldVsync_syncedB (s : State) : (reportHeldVsync s).syncedB = s.syncedB :=
  by unfold reportHeldVsync; split <;> simp
@[simp] theorem reportHeldVsync_nmbrkTaken (s : State) : (reportHeldVsync s).nmbrkTaken = s.nmbrkTaken :=
  by unfold reportHeldVsync; split <;> simp

@[simp] theorem changeVsync_gpr (s : State) : (changeVsync s).cpu.gpr = s.cpu.gpr :=
  by unfold changeVsync; split <;> (try split) <;> first | rfl | simp
@[simp] theorem changeVsync_pc (s : State) : (changeVsync s).cpu.pc = s.cpu.pc :=
  by unfold changeVsync; split <;> (try split) <;> first | rfl | simp
@[simp] theorem changeVsync_msr (s : State) : (changeVsync s).cpu.msr = s.cpu.msr :=
  by unfold changeVsync; split <;> (try split) <;> first | rfl | simp
@[simp] theorem changeVsync_srr0 (s : State) : (changeVsync s).cpu.srr0 = s.cpu.srr0 :=
  by unfold changeVsync; split <;> (try split) <;> first | rfl | simp
@[simp] theorem changeVsync_srr1 (s : State) : (changeVsync s).cpu.srr1 = s.cpu.srr1 :=
  by unfold changeVsync; split <;> (try split) <;> first | rfl | simp
@[simp] theorem changeVsync_dar (s : State) : (changeVsync s).cpu.dar = s.cpu.dar :=
  by unfold changeVsync; split <;> (try split) <;> first | rfl | simp
@[simp] theorem changeVsync_dsisr (s : State) : (changeVsync s).cpu.dsisr = s.cpu.dsisr :=
  by unfold changeVsync; split <;> (try split) <;> first | rfl | simp
@[simp] theorem changeVsync_checkStop (s : State) : (changeVsync s).cpu.checkStop = s.cpu.checkStop :=
  by unfold changeVsync; split <;> (try split) <;> first | rfl | simp
@[simp] theorem changeVsync_wait (s : State) : (changeVsync s).cpu.wait = s.cpu.wait :=
  by unfold changeVsync; split <;> (try split) <;> first | rfl | simp
@[simp] theorem changeVsync_dpir (s : State) : (changeVsync s).cpu.dpir = s.cpu.dpir :=
  by unfold changeVsync; split <;> (try split) <;> first | rfl | simp
@[simp] theorem changeVsync_flight (s : State) : (changeVsync s).cpu.flight = s.cpu.flight :=
  by unfold changeVsync; split <;> (try split) <;> first | rfl | simp
@[simp] theorem changeVsync_dev (s : State) : (changeVsync s).dev = s.dev :=
  by unfold changeVsync; split <;> (try split) <;> first | rfl | simp
@[simp] theorem changeVsync_mode (s : State) : (changeVsync s).mode = s.mode :=
  by unfold changeVsync; split <;> (try split) <;> first | rfl | simp
@[simp] theorem changeVsync_port (s : State) : (changeVsync s).port = s.port :=
  by unfold changeVsync; split <;> (try split) <;> first | rfl | simp
@[simp] theorem changeVsync_ext (s : State) : (changeVsync s).ext = s.ext :=
  by unfold changeVsync; split <;> (try split) <;> first | rfl | simp
@[simp] theorem changeVsync_mem (s : State) : (changeVsync s).mem = s.mem :=
  by unfold changeVsync; split <;> (try split) <;> first | rfl | simp
@[simp] theorem changeVsync_draws (s : State) : (changeVsync s).draws = s.draws :=
  by unfold changeVsync; split <;> (try split) <;> first | rfl | simp
@[simp] theorem changeVsync_syncedA (s : State) : (changeVsync s).syncedA = s.syncedA :=
  by unfold changeVsync; split <;> (try split) <;> first | rfl | simp
@[simp] theorem changeVsync_syncedB (s : State) : (changeVsync s).syncedB = s.syncedB :=
  by unfold changeVsync; split <;> (try split) <;> first | rfl | simp
@[simp] theorem changeVsync_nmbrkTaken (s : State) : (changeVsync s).nmbrkTaken = s.nmbrkTaken :=
  by unfold changeVsync; split <;> (try split) <;> first | rfl | simp

@[simp] theorem sequencingError_gpr (s : State) : (sequencingError s).cpu.gpr = s.cpu.gpr :=
  rfl
@[simp] theorem sequencingError_pc (s : State) : (sequencingError s).cpu.pc = s.cpu.pc :=
  rfl
@[simp] theorem sequencingError_msr (s : State) : (sequencingError s).cpu.msr = s.cpu.msr :=
  rfl
@[simp] theorem sequencingError_srr0 (s : State) : (sequencingError s).cpu.srr0 = s.cpu.srr0 :=
  rfl
@[simp] theorem sequencingError_srr1 (s : State) : (sequencingError s).cpu.srr1 = s.cpu.srr1 :=
  rfl
@[simp] theorem sequencingError_dar (s : State) : (sequencingError s).cpu.dar = s.cpu.dar :=
  rfl
@[simp] theorem sequencingError_dsisr (s : State) : (sequencingError s).cpu.dsisr = s.cpu.dsisr :=
  rfl
@[simp] theorem sequencingError_checkStop (s : State) : (sequencingError s).cpu.checkStop = s.cpu.checkStop :=
  rfl
@[simp] theorem sequencingError_wait (s : State) : (sequencingError s).cpu.wait = s.cpu.wait :=
  rfl
@[simp] theorem sequencingError_dpir (s : State) : (sequencingError s).cpu.dpir = s.cpu.dpir :=
  rfl
@[simp] theorem sequencingError_flight (s : State) : (sequencingError s).cpu.flight = s.cpu.flight :=
  rfl
@[simp] theorem sequencingError_dev (s : State) : (sequencingError s).dev = s.dev :=
  rfl
@[simp] theorem sequencingError_mode (s : State) : (sequencingError s).mode = s.mode :=
  rfl
@[simp] theorem sequencingError_port (s : State) : (sequencingError s).port = { s.port with pSeq := true } :=
  rfl
@[simp] theorem sequencingError_trace (s : State) : (sequencingError s).trace = s.trace :=
  rfl
@[simp] theorem sequencingError_ext (s : State) : (sequencingError s).ext = s.ext :=
  rfl
@[simp] theorem sequencingError_mem (s : State) : (sequencingError s).mem = s.mem :=
  rfl
@[simp] theorem sequencingError_draws (s : State) : (sequencingError s).draws = s.draws :=
  rfl
@[simp] theorem sequencingError_syncedA (s : State) : (sequencingError s).syncedA = s.syncedA :=
  rfl
@[simp] theorem sequencingError_syncedB (s : State) : (sequencingError s).syncedB = s.syncedB :=
  rfl
@[simp] theorem sequencingError_nmbrkTaken (s : State) : (sequencingError s).nmbrkTaken = s.nmbrkTaken :=
  rfl

@[simp] theorem brkEffect_gpr (n m : Bool) (s : State) : (brkEffect n m s).cpu.gpr = s.cpu.gpr :=
  rfl
@[simp] theorem brkEffect_pc (n m : Bool) (s : State) : (brkEffect n m s).cpu.pc = s.cpu.pc :=
  rfl
@[simp] theorem brkEffect_msr (n m : Bool) (s : State) : (brkEffect n m s).cpu.msr = s.cpu.msr :=
  rfl
@[simp] theorem brkEffect_srr0 (n m : Bool) (s : State) : (brkEffect n m s).cpu.srr0 = s.cpu.srr0 :=
  rfl
@[simp] theorem brkEffect_srr1 (n m : Bool) (s : State) : (brkEffect n m s).cpu.srr1 = s.cpu.srr1 :=
  rfl
@[simp] theorem brkEffect_dar (n m : Bool) (s : State) : (brkEffect n m s).cpu.dar = s.cpu.dar :=
  rfl
@[simp] theorem brkEffect_dsisr (n m : Bool) (s : State) : (brkEffect n m s).cpu.dsisr = s.cpu.dsisr :=
  rfl
@[simp] theorem brkEffect_checkStop (n m : Bool) (s : State) : (brkEffect n m s).cpu.checkStop = s.cpu.checkStop :=
  rfl
@[simp] theorem brkEffect_wait (n m : Bool) (s : State) : (brkEffect n m s).cpu.wait = s.cpu.wait :=
  rfl
@[simp] theorem brkEffect_dpir (n m : Bool) (s : State) : (brkEffect n m s).cpu.dpir = s.cpu.dpir :=
  rfl
@[simp] theorem brkEffect_flight (n m : Bool) (s : State) : (brkEffect n m s).cpu.flight = s.cpu.flight :=
  rfl
@[simp] theorem brkEffect_dev (n m : Bool) (s : State) : (brkEffect n m s).dev = s.dev :=
  rfl
@[simp] theorem brkEffect_mode (n m : Bool) (s : State) : (brkEffect n m s).mode = s.mode :=
  rfl
@[simp] theorem brkEffect_port (n m : Bool) (s : State) : (brkEffect n m s).port = { s.port with tecr := { s.port.tecr with nmbrk := n, mbrk := m } } :=
  rfl
@[simp] theorem brkEffect_trace (n m : Bool) (s : State) : (brkEffect n m s).trace = s.trace :=
  rfl
@[simp] theorem brkEffect_ext (n m : Bool) (s : State) : (brkEffect n m s).ext = s.ext :=
  rfl
@[simp] theorem brkEffect_mem (n m : Bool) (s : State) : (brkEffect n m s).mem = s.mem :=
  rfl
@[simp] theorem brkEffect_draws (n m : Bool) (s : State) : (brkEffect n m s).draws = s.draws :=
  rfl
@[simp] theorem brkEffect_syncedA (n m : Bool) (s : State) : (brkEffect n m s).syncedA = s.syncedA :=
  rfl
@[simp] theorem brkEffect_syncedB (n m : Bool) (s : State) : (brkEffect n m s).syncedB = s.syncedB :=
  rfl
@[simp] theorem brkEffect_nmbrkTaken (n m : Bool) (s : State) : (brkEffect n m s).nmbrkTaken = (s.nmbrkTaken && n) :=
  rfl

@[simp] theorem clearEcrOnRead_gpr (s : State) : (clearEcrOnRead s).cpu.gpr = s.cpu.gpr :=
  by unfold clearEcrOnRead; split <;> rfl
@[simp] theorem clearEcrOnRead_pc (s : State) : (clearEcrOnRead s).cpu.pc = s.cpu.pc :=
  by unfold clearEcrOnRead; split <;> rfl
@[simp] theorem clearEcrOnRead_msr (s : State) : (clearEcrOnRead s).cpu.msr = s.cpu.msr :=
  by unfold clearEcrOnRead; split <;> rfl
@[simp] theorem clearEcrOnRead_srr0 (s : State) : (clearEcrOnRead s).cpu.srr0 = s.cpu.srr0 :=
  by unfold clearEcrOnRead; split <;> rfl
@[simp] theorem clearEcrOnRead_srr1 (s : State) : (clearEcrOnRead s).cpu.srr1 = s.cpu.srr1 :=
  by unfold clearEcrOnRead; split <;> rfl
@[simp] theorem clearEcrOnRead_dar (s : State) : (clearEcrOnRead s).cpu.dar = s.cpu.dar :=
  by unfold clearEcrOnRead; split <;> rfl
@[simp] theorem clearEcrOnRead_dsisr (s : State) : (clearEcrOnRead s).cpu.dsisr = s.cpu.dsisr :=
  by unfold clearEcrOnRead; split <;> rfl
@[simp] theorem clearEcrOnRead_checkStop (s : State) : (clearEcrOnRead s).cpu.checkStop = s.cpu.checkStop :=
  by unfold clearEcrOnRead; split <;> rfl
@[simp] theorem clearEcrOnRead_wait (s : State) : (clearEcrOnRead s).cpu.wait = s.cpu.wait :=
  by unfold clearEcrOnRead; split <;> rfl
@[simp] theorem clearEcrOnRead_dpir (s : State) : (clearEcrOnRead s).cpu.dpir = s.cpu.dpir :=
  by unfold clearEcrOnRead; split <;> rfl
@[simp] theorem clearEcrOnRead_flight (s : State) : (clearEcrOnRead s).cpu.flight = s.cpu.flight :=
  by unfold clearEcrOnRead; split <;> rfl
@[simp] theorem clearEcrOnRead_mode (s : State) : (clearEcrOnRead s).mode = s.mode :=
  by unfold clearEcrOnRead; split <;> rfl
@[simp] theorem clearEcrOnRead_port (s : State) : (clearEcrOnRead s).port = s.port :=
  by unfold clearEcrOnRead; split <;> rfl
@[simp] theorem clearEcrOnRead_trace (s : State) : (clearEcrOnRead s).trace = s.trace :=
  by unfold clearEcrOnRead; split <;> rfl
@[simp] theorem clearEcrOnRead_ext (s : State) : (clearEcrOnRead s).ext = s.ext :=
  by unfold clearEcrOnRead; split <;> rfl
@[simp] theorem clearEcrOnRead_mem (s : State) : (clearEcrOnRead s).mem = s.mem :=
  by unfold clearEcrOnRead; split <;> rfl
@[simp] theorem clearEcrOnRead_draws (s : State) : (clearEcrOnRead s).draws = s.draws :=
  by unfold clearEcrOnRead; split <;> rfl
@[simp] theorem clearEcrOnRead_syncedA (s : State) : (clearEcrOnRead s).syncedA = s.syncedA :=
  by unfold clearEcrOnRead; split <;> rfl
@[simp] theorem clearEcrOnRead_syncedB (s : State) : (clearEcrOnRead s).syncedB = s.syncedB :=
  by unfold clearEcrOnRead; split <;> rfl
@[simp] theorem clearEcrOnRead_nmbrkTaken (s : State) : (clearEcrOnRead s).nmbrkTaken = s.nmbrkTaken :=
  by unfold clearEcrOnRead; split <;> rfl

@[simp] theorem passBreak_gpr (s : State) : (passBreak s).cpu.gpr = s.cpu.gpr :=
  by unfold passBreak; split <;> rfl
@[simp] theorem passBreak_pc (s : State) : (passBreak s).cpu.pc = s.cpu.pc :=
  by unfold passBreak; split <;> rfl
@[simp] theorem passBreak_msr (s : State) : (passBreak s).cpu.msr = s.cpu.msr :=
  by unfold passBreak; split <;> rfl
@[simp] theorem passBreak_srr0 (s : State) : (passBreak s).cpu.srr0 = s.cpu.srr0 :=
  by unfold passBreak; split <;> rfl
@[simp] theorem passBreak_srr1 (s : State) : (passBreak s).cpu.srr1 = s.cpu.srr1 :=
  by unfold passBreak; split <;> rfl
@[simp] theorem passBreak_dar (s : State) : (passBreak s).cpu.dar = s.cpu.dar :=
  by unfold passBreak; split <;> rfl
@[simp] theorem passBreak_dsisr (s : State) : (passBreak s).cpu.dsisr = s.cpu.dsisr :=
  by unfold passBreak; split <;> rfl
@[simp] theorem passBreak_checkStop (s : State) : (passBreak s).cpu.checkStop = s.cpu.checkStop :=
  by unfold passBreak; split <;> rfl
@[simp] theorem passBreak_wait (s : State) : (passBreak s).cpu.wait = s.cpu.wait :=
  by unfold passBreak; split <;> rfl
@[simp] theorem passBreak_dpir (s : State) : (passBreak s).cpu.dpir = s.cpu.dpir :=
  by unfold passBreak; split <;> rfl
@[simp] theorem passBreak_flight (s : State) : (passBreak s).cpu.flight = s.cpu.flight :=
  by unfold passBreak; split <;> rfl
@[simp] theorem passBreak_mode (s : State) : (passBreak s).mode = s.mode :=
  by unfold passBreak; split <;> rfl
@[simp] theorem passBreak_port (s : State) : (passBreak s).port = s.port :=
  by unfold passBreak; split <;> rfl
@[simp] theorem passBreak_trace (s : State) : (passBreak s).trace = s.trace :=
  by unfold passBreak; split <;> rfl
@[simp] theorem passBreak_ext (s : State) : (passBreak s).ext = s.ext :=
  by unfold passBreak; split <;> rfl
@[simp] theorem passBreak_mem (s : State) : (passBreak s).mem = s.mem :=
  by unfold passBreak; split <;> rfl
@[simp] theorem passBreak_syncedA (s : State) : (passBreak s).syncedA = s.syncedA :=
  by unfold passBreak; split <;> rfl
@[simp] theorem passBreak_syncedB (s : State) : (passBreak s).syncedB = s.syncedB :=
  by unfold passBreak; split <;> rfl
@[simp] theorem passBreak_nmbrkTaken (s : State) : (passBreak s).nmbrkTaken = s.nmbrkTaken :=
  by unfold passBreak; split <;> rfl

@[simp] theorem fetchFromPort_gpr (s : State) : (fetchFromPort s).cpu.gpr = s.cpu.gpr :=
  by unfold fetchFromPort; split <;> (try split) <;> rfl
@[simp] theorem fetchFromPort_pc (s : State) : (fetchFromPort s).cpu.pc = s.cpu.pc :=
  by unfold fetchFromPort; split <;> (try split) <;> rfl
@[simp] theorem fetchFromPort_msr (s : State) : (fetchFromPort s).cpu.msr = s.cpu.msr :=
  by unfold fetchFromPort; split <;> (try split) <;> rfl
@[simp] theorem fetchFromPort_srr0 (s : State) : (fetchFromPort s).cpu.srr0 = s.cpu.srr0 :=
  by unfold fetchFromPort; split <;> (try split) <;> rfl
@[simp] theorem fetchFromPort_srr1 (s : State) : (fetchFromPort s).cpu.srr1 = s.cpu.srr1 :=
  by unfold fetchFromPort; split <;> (try split) <;> rfl
@[simp] theorem fetchFromPort_dar (s : State) : (fetchFromPort s).cpu.dar = s.cpu.dar :=
  by unfold fetchFromPort; split <;> (try split) <;> rfl
@[simp] theorem fetchFromPort_dsisr (s : State) : (fetchFromPort s).cpu.dsisr = s.cpu.dsisr :=
  by unfold fetchFromPort; split <;> (try split) <;> rfl
@[simp] theorem fetchFromPort_checkStop (s : State) : (fetchFromPort s).cpu.checkStop = s.cpu.checkStop :=
  by unfold fetchFromPort; split <;> (try split) <;> rfl
@[simp] theorem fetchFromPort_flight (s : State) : (fetchFromPort s).cpu.flight = s.cpu.flight :=
  by unfold fetchFromPort; split <;> (try split) <;> rfl
@[simp] theorem fetchFromPort_dev (s : State) : (fetchFromPort s).dev = s.dev :=
  by unfold fetchFromPort; split <;> (try split) <;> rfl
@[simp] theorem fetchFromPort_mode (s : State) : (fetchFromPort s).mode = s.mode :=
  by unfold fetchFromPort; split <;> (try split) <;> rfl
@[simp] theorem fetchFromPort_trace (s : State) : (fetchFromPort s).trace = s.trace :=
  by unfold fetchFromPort; split <;> (try split) <;> rfl
@[simp] theorem fetchFromPort_ext (s : State) : (fetchFromPort s).ext = s.ext :=
  by unfold fetchFromPort; split <;> (try split) <;> rfl
@[simp] theorem fetchFromPort_mem (s : State) : (fetchFromPort s).mem = s.mem :=
  by unfold fetchFromPort; split <;> (try split) <;> rfl
@[simp] theorem fetchFromPort_draws (s : State) : (fetchFromPort s).draws = s.draws :=
  by unfold fetchFromPort; split <;> (try split) <;> rfl
@[simp] theorem fetchFromPort_syncedA (s : State) : (fetchFromPort s).syncedA = s.syncedA :=
  by unfold fetchFromPort; split <;> (try split) <;> rfl
@[simp] theorem fetchFromPort_syncedB (s : State) : (fetchFromPort s).syncedB = s.syncedB :=
  by unfold fetchFromPort; split <;> (try split) <;> rfl
@[simp] theorem fetchFromPort_nmbrkTaken (s : State) : (fetchFromPort s).nmbrkTaken = s.nmbrkTaken :=
  by unfold fetchFromPort; split <;> (try split) <;> rfl

@[simp] theorem endDownload_gpr (s : State) : (endDownload s).cpu.gpr = s.cpu.gpr :=
  by unfold endDownload; split <;> rfl
@[simp] theorem endDownload_pc (s : State) : (endDownload s).cpu.pc = s.cpu.pc :=
  by unfold endDownload; split <;> rfl
@[simp] theorem endDownload_msr (s : State) : (endDownload s).cpu.msr = s.cpu.msr :=
  by unfold endDownload; split <;> rfl
@[simp] theorem endDownload_srr0 (s : State) : (endDownload s).cpu.srr0 = s.cpu.srr0 :=
  by unfold endDownload; split <;> rfl
@[simp] theorem endDownload_srr1 (s : State) : (endDownload s).cpu.srr1 = s.cpu.srr1 :=
  by unfold endDownload; split <;> rfl
@[simp] theorem endDownload_dar (s : State) : (endDownload s).cpu.dar = s.cpu.dar :=
  by unfold endDownload; split <;> rfl
@[simp] theorem endDownload_dsisr (s : State) : (endDownload s).cpu.dsisr = s.cpu.dsisr :=
  by unfold endDownload; split <;> rfl
@[simp] theorem endDownload_checkStop (s : State) : (endDownload s).cpu.checkStop = s.cpu.checkStop :=
  by unfold endDownload; split <;> rfl
@[simp] theorem endDownload_wait (s : State) : (endDownload s).cpu.wait = s.cpu.wait :=
  by unfold endDownload; split <;> rfl
@[simp] theorem endDownload_dpir (s : State) : (endDownload s).cpu.dpir = s.cpu.dpir :=
  by unfold endDownload; split <;> rfl
@[simp] theorem endDownload_flight (s : State) : (endDownload s).cpu.flight = s.cpu.flight :=
  by unfold endDownload; split <;> rfl
@[simp] theorem endDownload_dev (s : State) : (endDownload s).dev = s.dev :=
  by unfold endDownload; split <;> rfl
@[simp] theorem endDownload_mode (s : State) : (endDownload s).mode = s.mode :=
  by unfold endDownload; split <;> rfl
@[simp] theorem endDownload_trace (s : State) : (endDownload s).trace = s.trace :=
  by unfold endDownload; split <;> rfl
@[simp] theorem endDownload_ext (s : State) : (endDownload s).ext = s.ext :=
  by unfold endDownload; split <;> rfl
@[simp] theorem endDownload_mem (s : State) : (endDownload s).mem = s.mem :=
  by unfold endDownload; split <;> rfl
@[simp] theorem endDownload_draws (s : State) : (endDownload s).draws = s.draws :=
  by unfold endDownload; split <;> rfl
@[simp] theorem endDownload_syncedA (s : State) : (endDownload s).syncedA = s.syncedA :=
  by unfold endDownload; split <;> rfl
@[simp] theorem endDownload_syncedB (s : State) : (endDownload s).syncedB = s.syncedB :=
  by unfold endDownload; split <;> rfl
@[simp] theorem endDownload_nmbrkTaken (s : State) : (endDownload s).nmbrkTaken = s.nmbrkTaken :=
  by unfold endDownload; split <;> rfl

@[simp] theorem completeRead_pc (rd : Reg) (v : Word) (s : State) : (completeRead rd v s).cpu.pc = s.cpu.pc :=
  by unfold completeRead; split <;> rfl
@[simp] theorem completeRead_msr (rd : Reg) (v : Word) (s : State) : (completeRead rd v s).cpu.msr = s.cpu.msr :=
  by unfold completeRead; split <;> rfl
@[simp] theorem completeRead_srr0 (rd : Reg) (v : Word) (s : State) : (completeRead rd v s).cpu.srr0 = s.cpu.srr0 :=
  by unfold completeRead; split <;> rfl
@[simp] theorem completeRead_srr1 (rd : Reg) (v : Word) (s : State) : (completeRead rd v s).cpu.srr1 = s.cpu.srr1 :=
  by unfold completeRead; split <;> rfl
@[simp] theorem completeRead_dar (rd : Reg) (v : Word) (s : State) : (completeRead rd v s).cpu.dar = s.cpu.dar :=
  by unfold completeRead; split <;> rfl
@[simp] theorem completeRead_dsisr (rd : Reg) (v : Word) (s : State) : (completeRead rd v s).cpu.dsisr = s.cpu.dsisr :=
  by unfold completeRead; split <;> rfl
@[simp] theorem completeRead_checkStop (rd : Reg) (v : Word) (s : State) : (completeRead rd v s).cpu.checkStop = s.cpu.checkStop :=
  by unfold completeRead; split <;> rfl
@[simp] theorem completeRead_wait (rd : Reg) (v : Word) (s : State) : (completeRead rd v s).cpu.wait = CpuWait.none :=
  by unfold completeRead; split <;> rfl
@[simp] theorem completeRead_dpir (rd : Reg) (v : Word) (s : State) : (completeRead rd v s).cpu.dpir = s.cpu.dpir :=
  by unfold completeRead; split <;> rfl
@[simp] theorem completeRead_flight (rd : Reg) (v : Word) (s : State) : (completeRead rd v s).cpu.flight = s.cpu.flight :=
  by unfold completeRead; split <;> rfl
@[simp] theorem completeRead_mode (rd : Reg) (v : Word) (s : State) : (completeRead rd v s).mode = s.mode :=
  by unfold completeRead; split <;> rfl
@[simp] theorem completeRead_trace (rd : Reg) (v : Word) (s : State) : (completeRead rd v s).trace = s.trace :=
  by unfold completeRead; split <;> rfl
@[simp] theorem completeRead_ext (rd : Reg) (v : Word) (s : State) : (completeRead rd v s).ext = s.ext :=
  by unfold completeRead; split <;> rfl
@[simp] theorem completeRead_mem (rd : Reg) (v : Word) (s : State) : (completeRead rd v s).mem = s.mem :=
  by unfold completeRead; split <;> rfl
@[simp] theorem completeRead_syncedA (rd : Reg) (v : Word) (s : State) : (completeRead rd v s).syncedA = s.syncedA :=
  by unfold completeRead; split <;> rfl
@[simp] theorem completeRead_syncedB (rd : Reg) (v : Word) (s : State) : (completeRead rd v s).syncedB = s.syncedB :=
  by unfold completeRead; split <;> rfl
@[simp] theorem completeRead_nmbrkTaken (rd : Reg) (v : Word) (s : State) : (completeRead rd v s).nmbrkTaken = s.nmbrkTaken :=
  by unfold completeRead; split <;> rfl

@[simp] theorem shiftIn_gpr (f : Frame) (s : State) : (shiftIn f s).cpu.gpr = s.cpu.gpr :=
  by unfold shiftIn; split <;> (try split) <;> rfl
@[simp] theorem shiftIn_pc (f : Frame) (s : State) : (shiftIn f s).cpu.pc = s.cpu.pc :=
  by unfold shiftIn; split <;> (try split) <;> rfl
@[simp] theorem shiftIn_msr (f : Frame) (s : State) : (shiftIn f s).cpu.msr = s.cpu.msr :=
  by unfold shiftIn; split <;> (try split) <;> rfl
@[simp] theorem shiftIn_srr0 (f : Frame) (s : State) : (shiftIn f s).cpu.srr0 = s.cpu.srr0 :=
  by unfold shiftIn; split <;> (try split) <;> rfl
@[simp] theorem shiftIn_srr1 (f : Frame) (s : State) : (shiftIn f s).cpu.srr1 = s.cpu.srr1 :=
  by unfold shiftIn; split <;> (try split) <;> rfl
@[simp] theorem shiftIn_dar (f : Frame) (s : State) : (shiftIn f s).cpu.dar = s.cpu.dar :=
  by unfold shiftIn; split <;> (try split) <;> rfl
@[simp] theorem shiftIn_dsisr (f : Frame) (s : State) : (shiftIn f s).cpu.dsisr = s.cpu.dsisr :=
  by unfold shiftIn; split <;> (try split) <;> rfl
@[simp] theorem shiftIn_checkStop (f : Frame) (s : State) : (shiftIn f s).cpu.checkStop = s.cpu.checkStop :=
  by unfold shiftIn; split <;> (try split) <;> rfl
@[simp] theorem shiftIn_wait (f : Frame) (s : State) : (shiftIn f s).cpu.wait = s.cpu.wait :=
  by unfold shiftIn; split <;> (try split) <;> rfl
@[simp] theorem shiftIn_dpir (f : Frame) (s : State) : (shiftIn f s).cpu.dpir = s.cpu.dpir :=
  by unfold shiftIn; split <;> (try split) <;> rfl
@[simp] theorem shiftIn_flight (f : Frame) (s : State) : (shiftIn f s).cpu.flight = s.cpu.flight :=
  by unfold shiftIn; split <;> (try split) <;> rfl
@[simp] theorem shiftIn_dev (f : Frame) (s : State) : (shiftIn f s).dev = s.dev :=
  by unfold shiftIn; split <;> (try split) <;> rfl
@[simp] theorem shiftIn_mode (f : Frame) (s : State) : (shiftIn f s).mode = s.mode :=
  by unfold shiftIn; split <;> (try split) <;> rfl
@[simp] theorem shiftIn_trace (f : Frame) (s : State) : (shiftIn f s).trace = s.trace :=
  by unfold shiftIn; split <;> (try split) <;> rfl
@[simp] theorem shiftIn_ext (f : Frame) (s : State) : (shiftIn f s).ext = s.ext :=
  by unfold shiftIn; split <;> (try split) <;> rfl
@[simp] theorem shiftIn_mem (f : Frame) (s : State) : (shiftIn f s).mem = s.mem :=
  by unfold shiftIn; split <;> (try split) <;> rfl
@[simp] theorem shiftIn_draws (f : Frame) (s : State) : (shiftIn f s).draws = s.draws :=
  by unfold shiftIn; split <;> (try split) <;> rfl
@[simp] theorem shiftIn_syncedA (f : Frame) (s : State) : (shiftIn f s).syncedA = s.syncedA :=
  by unfold shiftIn; split <;> (try split) <;> rfl
@[simp] theorem shiftIn_syncedB (f : Frame) (s : State) : (shiftIn f s).syncedB = s.syncedB :=
  by unfold shiftIn; split <;> (try split) <;> rfl
@[simp] theorem shiftIn_nmbrkTaken (f : Frame) (s : State) : (shiftIn f s).nmbrkTaken = s.nmbrkTaken :=
  by unfold shiftIn; split <;> (try split) <;> rfl

@[simp] theorem clearReported_gpr (f : Frame) (s : State) : (clearReported f s).cpu.gpr = s.cpu.gpr :=
  by unfold clearReported; split <;> rfl
@[simp] theorem clearReported_pc (f : Frame) (s : State) : (clearReported f s).cpu.pc = s.cpu.pc :=
  by unfold clearReported; split <;> rfl
@[simp] theorem clearReported_msr (f : Frame) (s : State) : (clearReported f s).cpu.msr = s.cpu.msr :=
  by unfold clearReported; split <;> rfl
@[simp] theorem clearReported_srr0 (f : Frame) (s : State) : (clearReported f s).cpu.srr0 = s.cpu.srr0 :=
  by unfold clearReported; split <;> rfl
@[simp] theorem clearReported_srr1 (f : Frame) (s : State) : (clearReported f s).cpu.srr1 = s.cpu.srr1 :=
  by unfold clearReported; split <;> rfl
@[simp] theorem clearReported_dar (f : Frame) (s : State) : (clearReported f s).cpu.dar = s.cpu.dar :=
  by unfold clearReported; split <;> rfl
@[simp] theorem clearReported_dsisr (f : Frame) (s : State) : (clearReported f s).cpu.dsisr = s.cpu.dsisr :=
  by unfold clearReported; split <;> rfl
@[simp] theorem clearReported_checkStop (f : Frame) (s : State) : (clearReported f s).cpu.checkStop = s.cpu.checkStop :=
  by unfold clearReported; split <;> rfl
@[simp] theorem clearReported_wait (f : Frame) (s : State) : (clearReported f s).cpu.wait = s.cpu.wait :=
  by unfold clearReported; split <;> rfl
@[simp] theorem clearReported_dpir (f : Frame) (s : State) : (clearReported f s).cpu.dpir = s.cpu.dpir :=
  by unfold clearReported; split <;> rfl
@[simp] theorem clearReported_flight (f : Frame) (s : State) : (clearReported f s).cpu.flight = s.cpu.flight :=
  by unfold clearReported; split <;> rfl
@[simp] theorem clearReported_dev (f : Frame) (s : State) : (clearReported f s).dev = s.dev :=
  by unfold clearReported; split <;> rfl
@[simp] theorem clearReported_mode (f : Frame) (s : State) : (clearReported f s).mode = s.mode :=
  by unfold clearReported; split <;> rfl
@[simp] theorem clearReported_trace (f : Frame) (s : State) : (clearReported f s).trace = s.trace :=
  by unfold clearReported; split <;> rfl
@[simp] theorem clearReported_ext (f : Frame) (s : State) : (clearReported f s).ext = s.ext :=
  by unfold clearReported; split <;> rfl
@[simp] theorem clearReported_mem (f : Frame) (s : State) : (clearReported f s).mem = s.mem :=
  by unfold clearReported; split <;> rfl
@[simp] theorem clearReported_syncedA (f : Frame) (s : State) : (clearReported f s).syncedA = s.syncedA :=
  by unfold clearReported; split <;> rfl
@[simp] theorem clearReported_syncedB (f : Frame) (s : State) : (clearReported f s).syncedB = s.syncedB :=
  by unfold clearReported; split <;> rfl
@[simp] theorem clearReported_nmbrkTaken (f : Frame) (s : State) : (clearReported f s).nmbrkTaken = s.nmbrkTaken :=
  by unfold clearReported; split <;> rfl

@[simp] theorem exchange_gpr (f : Frame) (s : State) : (exchange f s).cpu.gpr = s.cpu.gpr :=
  by simp [exchange]
@[simp] theorem exchange_pc (f : Frame) (s : State) : (exchange f s).cpu.pc = s.cpu.pc :=
  by simp [exchange]
@[simp] theorem exchange_msr (f : Frame) (s : State) : (exchange f s).cpu.msr = s.cpu.msr :=
  by simp [exchange]
@[simp] theorem exchange_srr0 (f : Frame) (s : State) : (exchange f s).cpu.srr0 = s.cpu.srr0 :=
  by simp [exchange]
@[simp] theorem exchange_srr1 (f : Frame) (s : State) : (exchange f s).cpu.srr1 = s.cpu.srr1 :=
  by simp [exchange]
@[simp] theorem exchange_dar (f : Frame) (s : State) : (exchange f s).cpu.dar = s.cpu.dar :=
  by simp [exchange]
@[simp] theorem exchange_dsisr (f : Frame) (s : State) : (exchange f s).cpu.dsisr = s.cpu.dsisr :=
  by simp [exchange]
@[simp] theorem exchange_checkStop (f : Frame) (s : State) : (exchange f s).cpu.checkStop = s.cpu.checkStop :=
  by simp [exchange]
@[simp] theorem exchange_wait (f : Frame) (s : State) : (exchange f s).cpu.wait = s.cpu.wait :=
  by simp [exchange]
@[simp] theorem exchange_dpir (f : Frame) (s : State) : (exchange f s).cpu.dpir = s.cpu.dpir :=
  by simp [exchange]
@[simp] theorem exchange_flight (f : Frame) (s : State) : (exchange f s).cpu.flight = s.cpu.flight :=
  by simp [exchange]
@[simp] theorem exchange_dev (f : Frame) (s : State) : (exchange f s).dev = s.dev :=
  by simp [exchange]
@[simp] theorem exchange_mode (f : Frame) (s : State) : (exchange f s).mode = s.mode :=
  by simp [exchange]
@[simp] theorem exchange_trace (f : Frame) (s : State) : (exchange f s).trace = s.trace :=
  by simp [exchange]
@[simp] theorem exchange_ext (f : Frame) (s : State) : (exchange f s).ext = s.ext :=
  by simp [exchange]
@[simp] theorem exchange_mem (f : Frame) (s : State) : (exchange f s).mem = s.mem :=
  by simp [exchange]
@[simp] theorem exchange_syncedA (f : Frame) (s : State) : (exchange f s).syncedA = s.syncedA :=
  by simp [exchange]
@[simp] theorem exchange_syncedB (f : Frame) (s : State) : (exchange f s).syncedB = s.syncedB :=
  by simp [exchange]
@[simp] theorem exchange_nmbrkTaken (f : Frame) (s : State) : (exchange f s).nmbrkTaken = s.nmbrkTaken :=
  by simp [exchange]

@[simp] theorem finish_gpr (s0 : State) (s : State) : (finish s0 s).cpu.gpr = s.cpu.gpr :=
  by simp [finish]
@[simp] theorem finish_pc (s0 : State) (s : State) : (finish s0 s).cpu.pc = s.cpu.pc :=
  by simp [finish]
@[simp] theorem finish_msr (s0 : State) (s : State) : (finish s0 s).cpu.msr = s.cpu.msr :=
  by simp [finish]
@[simp] theorem finish_srr0 (s0 : State) (s : State) : (finish s0 s).cpu.srr0 = s.cpu.srr0 :=
  by simp [finish]
@[simp] theorem finish_srr1 (s0 : State) (s : State) : (finish s0 s).cpu.srr1 = s.cpu.srr1 :=
  by simp [finish]
@[simp] theorem finish_dar (s0 : State) (s : State) : (finish s0 s).cpu.dar = s.cpu.dar :=
  by simp [finish]
@[simp] theorem finish_dsisr (s0 : State) (s : State) : (finish s0 s).cpu.dsisr = s.cpu.dsisr :=
  by simp [finish]
@[simp] theorem finish_checkStop (s0 : State) (s : State) : (finish s0 s).cpu.checkStop = s.cpu.checkStop :=
  by simp [finish]
@[simp] theorem finish_wait (s0 : State) (s : State) : (finish s0 s).cpu.wait = s.cpu.wait :=
  by simp [finish]
@[simp] theorem finish_dpir (s0 : State) (s : State) : (finish s0 s).cpu.dpir = s.cpu.dpir :=
  by simp [finish]
@[simp] theorem finish_flight (s0 : State) (s : State) : (finish s0 s).cpu.flight = Flight.idle :=
  by simp [finish]
@[simp] theorem finish_dev (s0 : State) (s : State) : (finish s0 s).dev = s.dev :=
  by simp [finish]
@[simp] theorem finish_mode (s0 : State) (s : State) : (finish s0 s).mode = s.mode :=
  by simp [finish]
@[simp] theorem finish_port (s0 : State) (s : State) : (finish s0 s).port = s.port :=
  by simp [finish]
@[simp] theorem finish_ext (s0 : State) (s : State) : (finish s0 s).ext = s.ext :=
  by simp [finish]
@[simp] theorem finish_mem (s0 : State) (s : State) : (finish s0 s).mem = s.mem :=
  by simp [finish]
@[simp] theorem finish_draws (s0 : State) (s : State) : (finish s0 s).draws = s.draws :=
  by simp [finish]
@[simp] theorem finish_syncedA (s0 : State) (s : State) : (finish s0 s).syncedA = s.syncedA :=
  by simp [finish]
@[simp] theorem finish_syncedB (s0 : State) (s : State) : (finish s0 s).syncedB = s.syncedB :=
  by simp [finish]
@[simp] theorem finish_nmbrkTaken (s0 : State) (s : State) : (finish s0 s).nmbrkTaken = s.nmbrkTaken :=
  by simp [finish]

@[simp] theorem fetched_gpr (s : State) : (fetched s).cpu.gpr = s.cpu.gpr :=
  rfl
@[simp] theorem fetched_pc (s : State) : (fetched s).cpu.pc = s.cpu.pc :=
  rfl
@[simp] theorem fetched_msr (s : State) : (fetched s).cpu.msr = s.cpu.msr :=
  rfl
@[simp] theorem fetched_srr0 (s : State) : (fetched s).cpu.srr0 = s.cpu.srr0 :=
  rfl
@[simp] theorem fetched_srr1 (s : State) : (fetched s).cpu.srr1 = s.cpu.srr1 :=
  rfl
@[simp] theorem fetched_dar (s : State) : (fetched s).cpu.dar = s.cpu.dar :=
  rfl
@[simp] theorem fetched_dsisr (s : State) : (fetched s).cpu.dsisr = s.cpu.dsisr :=
  rfl
@[simp] theorem fetched_checkStop (s : State) : (fetched s).cpu.checkStop = s.cpu.checkStop :=
  rfl
@[simp] theorem fetched_wait (s : State) : (fetched s).cpu.wait = s.cpu.wait :=
  rfl
@[simp] theorem fetched_dpir (s : State) : (fetched s).cpu.dpir = s.cpu.dpir :=
  rfl
@[simp] theorem fetched_flight (s : State) : (fetched s).cpu.flight = flightOfFetch (s.cpu.pc.extractLsb' 2 30) s.dev :=
  rfl
@[simp] theorem fetched_dev (s : State) : (fetched s).dev = s.dev :=
  rfl
@[simp] theorem fetched_mode (s : State) : (fetched s).mode = s.mode :=
  rfl
@[simp] theorem fetched_port (s : State) : (fetched s).port = s.port :=
  rfl
@[simp] theorem fetched_ext (s : State) : (fetched s).ext = s.ext :=
  rfl
@[simp] theorem fetched_mem (s : State) : (fetched s).mem = s.mem :=
  rfl
@[simp] theorem fetched_draws (s : State) : (fetched s).draws = s.draws :=
  rfl
@[simp] theorem fetched_syncedA (s : State) : (fetched s).syncedA = s.syncedA :=
  rfl
@[simp] theorem fetched_syncedB (s : State) : (fetched s).syncedB = s.syncedB :=
  rfl
@[simp] theorem fetched_nmbrkTaken (s : State) : (fetched s).nmbrkTaken = s.nmbrkTaken :=
  rfl

@[simp] theorem spend_cpu (k : Nat) (s : State) : (spend k s).cpu = s.cpu :=
  rfl

@[simp] theorem showFetch_cpu (s : State) : (showFetch s).cpu = s.cpu :=
  rfl

@[simp] theorem recordCause_cpu (e : Event) (s : State) : (recordCause e s).cpu = s.cpu :=
  rfl

@[simp] theorem recordInDebug_cpu (e : Event) (s : State) : (recordInDebug e s).cpu = s.cpu :=
  rfl

@[simp] theorem reportType_cpu (c : BitVec 3) (s : State) : (reportType c s).cpu = s.cpu :=
  by unfold reportType; split <;> rfl

@[simp] theorem markNext_cpu (m : FetchMark) (s : State) : (markNext m s).cpu = s.cpu :=
  by unfold markNext; split <;> rfl

@[simp] theorem vsyncEvent_cpu (s : State) : (vsyncEvent s).cpu = s.cpu :=
  by simp [vsyncEvent]

@[simp] theorem reportHeldVsync_cpu (s : State) : (reportHeldVsync s).cpu = s.cpu :=
  by unfold reportHeldVsync; split <;> simp

@[simp] theorem changeVsync_cpu (s : State) : (changeVsync s).cpu = s.cpu :=
  by unfold changeVsync; split <;> (try split) <;> first | rfl | simp

@[simp] theorem sequencingError_cpu (s : State) : (sequencingError s).cpu = s.cpu :=
  rfl

@[simp] theorem brkEffect_cpu (n m : Bool) (s : State) : (brkEffect n m s).cpu = s.cpu :=
  rfl

@[simp] theorem clearEcrOnRead_cpu (s : State) : (clearEcrOnRead s).cpu = s.cpu :=
  by unfold clearEcrOnRead; split <;> rfl

@[simp] theorem passBreak_cpu (s : State) : (passBreak s).cpu = s.cpu :=
  by unfold passBreak; split <;> rfl

@[simp] theorem endDownload_cpu (s : State) : (endDownload s).cpu = s.cpu :=
  by unfold endDownload; split <;> rfl

@[simp] theorem shiftIn_cpu (f : Frame) (s : State) : (shiftIn f s).cpu = s.cpu :=
  by unfold shiftIn; split <;> (try split) <;> rfl

@[simp] theorem clearReported_cpu (f : Frame) (s : State) : (clearReported f s).cpu = s.cpu :=
  by unfold clearReported; split <;> rfl

@[simp] theorem exchange_cpu (f : Frame) (s : State) : (exchange f s).cpu = s.cpu :=
  by simp [exchange]

/-! ### Reading registers back -/

theorem readGpr_writeGpr_same (r : Reg) (v : Word) (s : State) : readGpr r (writeGpr r v s) = v := by
  simp [readGpr]

theorem readGpr_writeGpr_other {q r : Reg} (h : q ≠ r) (v : Word) (s : State) :
    readGpr q (writeGpr r v s) = readGpr q s := by
  have : r.toNat ≠ q.toNat := fun e => h (BitVec.eq_of_toNat_eq e.symm)
  simp [readGpr, this]

theorem readGpr_congr {s t : State} (h : t.cpu.gpr = s.cpu.gpr) (q : Reg) : readGpr q t = readGpr q s := by
  simp [readGpr, h]

@[simp] theorem readGpr_spend (q : Reg) (k : Nat) (s : State) : readGpr q (spend k s) = readGpr q s :=
  readGpr_congr (spend_gpr k s) q

@[simp] theorem readGpr_advance (q : Reg) (s : State) : readGpr q (advance s) = readGpr q s :=
  readGpr_congr (advance_gpr  s) q

@[simp] theorem readGpr_storeWord (q : Reg) (a v : Word) (s : State) : readGpr q (storeWord a v s) = readGpr q s :=
  readGpr_congr (storeWord_gpr a v s) q

@[simp] theorem readGpr_showFetch (q : Reg) (s : State) : readGpr q (showFetch s) = readGpr q s :=
  readGpr_congr (showFetch_gpr  s) q

@[simp] theorem readGpr_markExcepted (q : Reg) (s : State) : readGpr q (markExcepted s) = readGpr q s :=
  readGpr_congr (markExcepted_gpr  s) q

@[simp] theorem readGpr_recordCause (q : Reg) (e : Event) (s : State) : readGpr q (recordCause e s) = readGpr q s :=
  readGpr_congr (recordCause_gpr e s) q

@[simp] theorem readGpr_recordInDebug (q : Reg) (e : Event) (s : State) : readGpr q (recordInDebug e s) = readGpr q s :=
  readGpr_congr (recordInDebug_gpr e s) q

@[simp] theorem readGpr_reportType (q : Reg) (c : BitVec 3) (s : State) : readGpr q (reportType c s) = readGpr q s :=
  readGpr_congr (reportType_gpr c s) q

@[simp] theorem readGpr_markNext (q : Reg) (m : FetchMark) (s : State) : readGpr q (markNext m s) = readGpr q s :=
  readGpr_congr (markNext_gpr m s) q

@[simp] theorem readGpr_completeSequential (q : Reg) (s : State) : readGpr q (completeSequential s) = readGpr q s :=
  readGpr_congr (completeSequential_gpr  s) q

@[simp] theorem readGpr_completeMarked (q : Reg) (s : State) : readGpr q (completeMarked s) = readGpr q s :=
  readGpr_congr (completeMarked_gpr  s) q

@[simp] theorem readGpr_completeMaybeMarked (q : Reg) (s : State) : readGpr q (completeMaybeMarked s) = readGpr q s :=
  readGpr_congr (completeMaybeMarked_gpr  s) q

@[simp] theorem readGpr_regularException (q : Reg) (e : Event) (srr0 : Word) (s : State) : readGpr q (regularException e srr0 s) = readGpr q s :=
  readGpr_congr (regularException_gpr e srr0 s) q

@[simp] theorem readGpr_enterDebug (q : Reg) (e : Option Event) (srr0 : Word) (s : State) : readGpr q (enterDebug e srr0 s) = readGpr q s :=
  readGpr_congr (enterDebug_gpr e srr0 s) q

@[simp] theorem readGpr_restoreContext (q : Reg) (s : State) : readGpr q (restoreContext s) = readGpr q s :=
  readGpr_congr (restoreContext_gpr  s) q

@[simp] theorem readGpr_leaveDebug (q : Reg) (s : State) : readGpr q (leaveDebug s) = readGpr q s :=
  readGpr_congr (leaveDebug_gpr  s) q

@[simp] theorem readGpr_vsyncEvent (q : Reg) (s : State) : readGpr q (vsyncEvent s) = readGpr q s :=
  readGpr_congr (vsyncEvent_gpr  s) q

@[simp] theorem readGpr_reportHeldVsync (q : Reg) (s : State) : readGpr q (reportHeldVsync s) = readGpr q s :=
  readGpr_congr (reportHeldVsync_gpr  s) q

@[simp] theorem readGpr_changeVsync (q : Reg) (s : State) : readGpr q (changeVsync s) = readGpr q s :=
  readGpr_congr (changeVsync_gpr  s) q

@[simp] theorem readGpr_sequencingError (q : Reg) (s : State) : readGpr q (sequencingError s) = readGpr q s :=
  readGpr_congr (sequencingError_gpr  s) q

@[simp] theorem readGpr_brkEffect (q : Reg) (n m : Bool) (s : State) : readGpr q (brkEffect n m s) = readGpr q s :=
  readGpr_congr (brkEffect_gpr n m s) q

@[simp] theorem readGpr_clearEcrOnRead (q : Reg) (s : State) : readGpr q (clearEcrOnRead s) = readGpr q s :=
  readGpr_congr (clearEcrOnRead_gpr  s) q

@[simp] theorem readGpr_passBreak (q : Reg) (s : State) : readGpr q (passBreak s) = readGpr q s :=
  readGpr_congr (passBreak_gpr  s) q

@[simp] theorem readGpr_fetchFromPort (q : Reg) (s : State) : readGpr q (fetchFromPort s) = readGpr q s :=
  readGpr_congr (fetchFromPort_gpr  s) q

@[simp] theorem readGpr_endDownload (q : Reg) (s : State) : readGpr q (endDownload s) = readGpr q s :=
  readGpr_congr (endDownload_gpr  s) q

@[simp] theorem readGpr_shiftIn (q : Reg) (f : Frame) (s : State) : readGpr q (shiftIn f s) = readGpr q s :=
  readGpr_congr (shiftIn_gpr f s) q

@[simp] theorem readGpr_clearReported (q : Reg) (f : Frame) (s : State) : readGpr q (clearReported f s) = readGpr q s :=
  readGpr_congr (clearReported_gpr f s) q

@[simp] theorem readGpr_exchange (q : Reg) (f : Frame) (s : State) : readGpr q (exchange f s) = readGpr q s :=
  readGpr_congr (exchange_gpr f s) q

@[simp] theorem readGpr_finish (q : Reg) (s0 : State) (s : State) : readGpr q (finish s0 s) = readGpr q s :=
  readGpr_congr (finish_gpr s0 s) q

@[simp] theorem readGpr_fetched (q : Reg) (s : State) : readGpr q (fetched s) = readGpr q s :=
  readGpr_congr (fetched_gpr  s) q

end Sys2Proof.Machine
end

