-- ==== Sys2Proof/Laws/Ops.lean ====
section
/-! SUPPORT. What each shared operation does, said once: the trace reports, a transmission, taking an exception, the
machine check, the return from an exception, the next fetch in debug mode. -/

namespace Sys2Proof.Machine

/-! ### Trace reports -/

/-- A report adds one type code outside debug mode and nothing in it. -/
theorem reportType_events (c : BitVec 3) (s : State) :
    (reportType c s).trace.events = s.trace.events ++ (if s.mode.dm then [] else [.typeCode c]) := by
  unfold reportType; cases s.mode.dm <;> simp

@[simp] theorem markNext_events (m : FetchMark) (s : State) : (markNext m s).trace.events = s.trace.events := by
  unfold markNext; split <;> rfl

@[simp] theorem reportType_mark (c : BitVec 3) (s : State) : (reportType c s).trace.mark = s.trace.mark := by
  unfold reportType; split <;> rfl

@[simp] theorem reportType_vsyncChanged (c : BitVec 3) (s : State) :
    (reportType c s).trace.vsyncChanged = s.trace.vsyncChanged := by
  unfold reportType; split <;> rfl

@[simp] theorem markNext_vsyncChanged (m : FetchMark) (s : State) :
    (markNext m s).trace.vsyncChanged = s.trace.vsyncChanged := by
  unfold markNext; split <;> rfl

@[simp] theorem reportType_pins (c : BitVec 3) (s : State) : (reportType c s).trace.pins = s.trace.pins := by
  unfold reportType; split <;> rfl

@[simp] theorem markNext_pins (m : FetchMark) (s : State) : (markNext m s).trace.pins = s.trace.pins := by
  unfold markNext; split <;> rfl

theorem markNext_mark (m : FetchMark) (s : State) (h : s.mode.dm = false) :
    (markNext m s).trace.mark = s.trace.mark.join m := by
  simp [markNext, h]

theorem completeSequential_events (s : State) :
    (completeSequential s).trace.events = s.trace.events ++ (if s.mode.dm then [] else [.typeCode 0b001#3]) :=
  reportType_events _ _

theorem completeMarked_events (s : State) :
    (completeMarked s).trace.events = s.trace.events ++ (if s.mode.dm then [] else [.typeCode 0b101#3]) :=
  (markNext_events _ _).trans (reportType_events _ _)

/-- An `mtspr` that may be marked is reported one way or the other. -/
theorem completeMaybeMarked_events (s : State) :
    (completeMaybeMarked s).trace.events = s.trace.events ++ (if s.mode.dm then [] else [.typeCode 0b101#3]) ∨
    (completeMaybeMarked s).trace.events = s.trace.events ++ (if s.mode.dm then [] else [.typeCode 0b001#3]) := by
  unfold completeMaybeMarked
  cases h : s.mode.dm
  · cases hb : freeBool 0 s <;> simp [reportType_events, h]
  · simp

/-- The first change of VSYNC that waits is reported exactly when no marked address is left to be shown (R198). -/
theorem reportHeldVsync_cases (s : State) :
    ((s.mode.dm = true ∨ s.trace.vsyncHeld = 0 ∨ s.trace.mark.ptc = true) ∧ reportHeldVsync s = s) ∨
    (s.mode.dm = false ∧ s.trace.vsyncHeld ≠ 0 ∧ s.trace.mark.ptc = false ∧
      reportHeldVsync s = vsyncEvent { s with trace.vsyncHeld := s.trace.vsyncHeld - 1 }) := by
  unfold reportHeldVsync
  cases s.mode.dm <;> cases s.trace.mark.ptc <;> by_cases h : s.trace.vsyncHeld = 0 <;> simp [h]

theorem reportHeldVsync_notHeld {s : State} (h : s.trace.vsyncHeld = 0) : reportHeldVsync s = s := by
  simp [reportHeldVsync, h]

@[simp] theorem reportType_isct (c : BitVec 3) (s : State) : (reportType c s).trace.isct = s.trace.isct := by
  unfold reportType; split <;> rfl

@[simp] theorem markNext_isct (m : FetchMark) (s : State) : (markNext m s).trace.isct = s.trace.isct := by
  unfold markNext; split <;> rfl

@[simp] theorem reportHeldVsync_pins (s : State) : (reportHeldVsync s).trace.pins = s.trace.pins := by
  rcases reportHeldVsync_cases s with ⟨_, h⟩ | ⟨_, _, _, h⟩ <;> rw [h]
  simp [vsyncEvent]

/-- The end of a CPU step puts the programming of the fetch in force for the next one (R205). -/
@[simp] theorem finish_isct (s0 s : State) : (finish s0 s).trace.isct = ictrlIsct s0.dev.ictrl := by
  unfold finish
  rcases reportHeldVsync_cases { s with cpu.flight := Flight.idle, trace.isct := ictrlIsct s0.dev.ictrl }
    with ⟨_, h⟩ | ⟨_, _, _, h⟩ <;> rw [h]
  simp [vsyncEvent]

@[simp] theorem finish_pins (s0 s : State) : (finish s0 s).trace.pins = s.trace.pins := by
  simp [finish]

/-- When the report of a change of VSYNC waits (R196, R197, R198). -/
theorem vsyncMustWait_iff {s : State} :
    vsyncMustWait s = true ↔
      s.trace.vsyncHeld ≠ 0 ∨ s.trace.mark.vsync = true ∨ (s.port.tecr.vsync = false ∧ s.trace.mark.ptc = true) := by
  simp [vsyncMustWait, or_assoc]

/-- What a change of VSYNC does: recorded in debug mode, held back, or reported (R195, R196, R198). -/
theorem changeVsync_cases (s : State) :
    (s.mode.dm = true ∧ changeVsync s = { s with trace.vsyncChanged := true }) ∨
    (s.mode.dm = false ∧ vsyncMustWait s = true ∧
      changeVsync s = { s with trace.vsyncHeld := s.trace.vsyncHeld + 1 }) ∨
    (s.mode.dm = false ∧ vsyncMustWait s = false ∧ changeVsync s = vsyncEvent s) := by
  unfold changeVsync
  cases s.mode.dm <;> cases vsyncMustWait s <;> simp

/-! ### The data word of an outstanding read -/

/-- What the data word does: it fills the register, or, in a trace mode, the trace event leaves the register free
(R351, R444, R460). -/
theorem completeRead_cases (rd : Reg) (v : Word) (s : State) :
    completeRead rd v s = spend 1 { writeGpr rd v s with cpu.wait := .none } ∨
    ((s.cpu.msr.se = true ∨ s.cpu.msr.be = true) ∧
      completeRead rd v s =
        spend 2 (writeGpr rd (freeWord 1 s) (recordInDebug .trace { s with cpu.wait := .none }))) := by
  unfold completeRead traceMode
  cases s.cpu.msr.se <;> cases s.cpu.msr.be <;> cases freeBool 0 s <;> simp

/-- In neither trace mode it fills the register. -/
theorem completeRead_off {s : State} (hs : s.cpu.msr.se = false) (hb : s.cpu.msr.be = false) (rd : Reg) (v : Word) :
    completeRead rd v s = spend 1 { writeGpr rd v s with cpu.wait := .none } := by
  simp [completeRead, traceMode, hs, hb]

/-- In single-step mode the trace event always follows. -/
theorem completeRead_step {s : State} (hs : s.cpu.msr.se = true) (rd : Reg) (v : Word) :
    completeRead rd v s =
      spend 2 (writeGpr rd (freeWord 1 s) (recordInDebug .trace { s with cpu.wait := .none })) := by
  simp [completeRead, traceMode, hs]

/-! ### The bus value of a store -/

/-- On an aligned address the bus value is the word (R104). -/
theorem busWord_aligned {a : Word} (h : a.extractLsb' 0 2 = 0#2) (v : Word) : busWord a v = v := by
  simp only [busWord, h]
  exact wordOfBytes_lanes v

/-- The byte for the address `a + k` travels on lane `(a + k)[30:31]` (R103). -/
theorem lane_busWord (a v : Word) {k : Nat} (hk : k < 4) : lane (busWord a v) ((a.toNat + k) % 4) = lane v k := by
  have e : (a.extractLsb' 0 2).toNat = a.toNat % 4 := by simp
  have h : a.toNat % 4 = 0 ∨ a.toNat % 4 = 1 ∨ a.toNat % 4 = 2 ∨ a.toNat % 4 = 3 := by omega
  have m : (a.toNat + k) % 4 = (a.toNat % 4 + k) % 4 := by omega
  have q : k = 0 ∨ k = 1 ∨ k = 2 ∨ k = 3 := by omega
  rw [m]
  simp only [busWord, e]
  rcases h with h | h | h | h <;> rcases q with rfl | rfl | rfl | rfl <;> simp [h, lane_wordOfBytes]

/-! ### The MSR image in SRR1 -/

/-- SRR1 gives back every bit of the image it was loaded with, whatever its layout is. -/
@[simp] theorem srr1Bit_toSrr1 (image : Word) (k : Fin 32) : srr1Bit (toSrr1 image) k = image.getMsbD k := by
  simp [srr1Bit, toSrr1, BitVec.getMsbD_ofFnBE]

@[simp] theorem ofSrr1_getMsbD (srr1 : Word) (k : Fin 32) : (ofSrr1 srr1).getMsbD k = srr1Bit srr1 k := by
  simp [ofSrr1, BitVec.getMsbD_ofFnBE]

/-- `rfi` finds the image the exception saved. -/
@[simp] theorem ofSrr1_toSrr1 (image : Word) : ofSrr1 (toSrr1 image) = image := by
  apply BitVec.eq_of_getMsbD_eq
  intro i h
  exact (ofSrr1_getMsbD _ ⟨i, h⟩).trans (srr1Bit_toSrr1 _ _)

/-! ### Memory that an excepting instruction may have written -/

/-- Free bytes keep the canonical form. -/
theorem storeFree_wf (k : Nat) (a : Word) {s : State} (h : Memory.wf s.mem = true) (n : Nat) :
    Memory.wf (storeFree k a s n) = true := by
  induction n with
  | zero => exact h
  | succ n ih => exact memWrite_wf _ ih (byteAddr_lt a n)

/-! ### The data comparators -/

/-- A cycle smaller than the compare unit never matches (R268). -/
theorem dataMatch_smaller {p : DataCompare} {c : BusCycle} {j : Nat} (h : c.size < (unitLanes p.size j).length)
    (free : Nat → Bool) : dataMatch p c free j = false := by
  simp [dataMatch, Nat.not_le.mpr h]

/-- A unit of which a lane carries no information of an aligned cycle does not match (R268). -/
theorem dataMatch_invalid {p : DataCompare} {c : BusCycle} {j : Nat} (hu : unalignedCycle c = false)
    (hs : p.size ≠ 0#2) (h : (unitLanes p.size j).all (laneValid c) = false) (free : Nat → Bool) :
    dataMatch p c free j = false := by
  have : (p.size == 0#2) = false := by simpa using hs
  simp [dataMatch, hu, this, h]

/-! ### Transmissions -/

/-- A transmission completes exactly while ready is asserted, and then does the exchange and, with no error status,
the effect. -/
theorem transmit_eq_next {f : Frame} {effect : State → State} {s t : State} :
    transmit f effect s = .next t ↔
      portReady s = true ∧ t = if inputActedOn s then effect (exchange f s) else exchange f s := by
  unfold transmit
  cases portReady s
  · simp
  · simp only [if_true, Host.Outcome.next.injEq, true_and]
    exact eq_comm

theorem transmit_ready {s : State} (h : portReady s = true) (f : Frame) (effect : State → State) :
    transmit f effect s = .next (if inputActedOn s then effect (exchange f s) else exchange f s) :=
  transmit_eq_next.mpr ⟨h, rfl⟩

@[simp] theorem clearReported_tecr (f : Frame) (s : State) : (clearReported f s).port.tecr = s.port.tecr := by
  unfold clearReported; split <;> rfl

@[simp] theorem clearReported_dlip (f : Frame) (s : State) : (clearReported f s).port.dlip = s.port.dlip := by
  unfold clearReported; split <;> rfl

@[simp] theorem clearReported_dlEnd (f : Frame) (s : State) : (clearReported f s).port.dlEnd = s.port.dlEnd := by
  unfold clearReported; split <;> rfl

@[simp] theorem clearReported_dlStore (f : Frame) (s : State) :
    (clearReported f s).port.dlStore = s.port.dlStore := by
  unfold clearReported; split <;> rfl

@[simp] theorem clearReported_dsdo (f : Frame) (s : State) : (clearReported f s).port.dsdo = s.port.dsdo := by
  unfold clearReported; split <;> rfl

/-- Shifting in changes the shift register alone. -/
theorem shiftIn_port (f : Frame) (s : State) :
    ∃ b, (shiftIn f s).port = { s.port with shift := b } := by
  unfold shiftIn
  split
  · exact ⟨s.port.shift, rfl⟩
  · split
    · exact ⟨_, rfl⟩
    · exact ⟨_, rfl⟩

@[simp] theorem exchange_tecr (f : Frame) (s : State) : (exchange f s).port.tecr = s.port.tecr := by
  obtain ⟨b, h⟩ := shiftIn_port f (clearReported f { s with port.dsdo := s.port.dsdo ++ [outFrame f s] })
  simp [exchange, h]

@[simp] theorem exchange_dlip (f : Frame) (s : State) : (exchange f s).port.dlip = s.port.dlip := by
  obtain ⟨b, h⟩ := shiftIn_port f (clearReported f { s with port.dsdo := s.port.dsdo ++ [outFrame f s] })
  simp [exchange, h]

@[simp] theorem exchange_dlEnd (f : Frame) (s : State) : (exchange f s).port.dlEnd = s.port.dlEnd := by
  obtain ⟨b, h⟩ := shiftIn_port f (clearReported f { s with port.dsdo := s.port.dsdo ++ [outFrame f s] })
  simp [exchange, h]

@[simp] theorem exchange_dlStore (f : Frame) (s : State) : (exchange f s).port.dlStore = s.port.dlStore := by
  obtain ⟨b, h⟩ := shiftIn_port f (clearReported f { s with port.dsdo := s.port.dsdo ++ [outFrame f s] })
  simp [exchange, h]

/-- The exchange appends one output frame. -/
@[simp] theorem exchange_dsdo (f : Frame) (s : State) :
    (exchange f s).port.dsdo = s.port.dsdo ++ [outFrame f s] := by
  obtain ⟨b, h⟩ := shiftIn_port f (clearReported f { s with port.dsdo := s.port.dsdo ++ [outFrame f s] })
  simp [exchange, h]

/-! ### Taking an exception -/

@[simp] theorem pickEvent_nil (e : Event) : pickEvent e [] = e := rfl

theorem pickEvent_mem (e : Event) (es : List Event) : pickEvent e es ∈ e :: es := by
  unfold pickEvent
  split
  · simp
  · next x xs =>
    rw [List.getD_eq_getElem?_getD, List.getElem?_eq_getElem (by
      simpa using Nat.mod_lt _ (Nat.succ_pos _))]
    exact List.getElem_mem _

/-- In debug mode an event is recorded (R460). -/
theorem raise_inDebug {s : State} (h : s.mode.dm = true) (e : Event) (resume : Word) :
    raise e resume s = markExcepted (recordInDebug e s) := by
  simp [raise, raiseAll, h]

/-- Outside debug mode an event that is not enabled, or with debug mode disabled, goes to its handler (R450). -/
theorem raise_regular {s : State} (h : s.mode.dm = false) {e : Event}
    (he : eventEnabled e s = false ∨ s.mode.dme = false) (resume : Word) :
    raise e resume s = markExcepted (regularException e (srr0For e resume) (recordCause e s)) := by
  rcases he with he | he <;> simp [raise, raiseAll, routeEvent, h, he]

/-- Outside debug mode an enabled event enters debug mode if that is enabled (R450). -/
theorem raise_debug {s : State} (h : s.mode.dm = false) {e : Event} (he : eventEnabled e s = true)
    (hd : s.mode.dme = true) (resume : Word) :
    raise e resume s = markExcepted (enterDebug (some e) (srr0For e resume) (recordCause e s)) := by
  simp [raise, raiseAll, routeEvent, h, he, hd]

@[simp] theorem foldl_recordInDebug_cpu (es : List Event) (s : State) :
    (es.foldl (fun t e => recordInDebug e t) s).cpu = s.cpu := by
  induction es generalizing s with
  | nil => rfl
  | cons e es ih => simp [ih]

/-- What recording events in debug mode leaves: their cause bits and P_INT. -/
theorem foldl_recordInDebug (es : List Event) (s : State) :
    ∃ b p, es.foldl (fun t e => recordInDebug e t) s =
      { s with dev := { s.dev with ecr := b }, port := { s.port with pInt := p } } := by
  induction es generalizing s with
  | nil => exact ⟨s.dev.ecr, s.port.pInt, rfl⟩
  | cons e es ih =>
    obtain ⟨b, p, h⟩ := ih (recordInDebug e s)
    exact ⟨b, p, by rw [List.foldl_cons, h]; rfl⟩

/-- What recording events outside debug mode leaves: their cause bits and freeze. -/
theorem foldl_recordCause (es : List Event) (s : State) :
    ∃ b z, es.foldl (fun t e => recordCause e t) s =
      { s with dev := { s.dev with ecr := b }, mode := { s.mode with frz := z } } := by
  induction es generalizing s with
  | nil => exact ⟨s.dev.ecr, s.mode.frz, rfl⟩
  | cons e es ih =>
    obtain ⟨b, z, h⟩ := ih (recordCause e s)
    exact ⟨b, z, by rw [List.foldl_cons, h]; rfl⟩

/-- Outside debug mode, one of the events enabled and debug mode enabled: debug mode is entered once. -/
theorem raiseAll_debug {s : State} (h : s.mode.dm = false) (hd : s.mode.dme = true) {e : Event} {es : List Event}
    (ha : (e :: es).any (fun x => eventEnabled x s) = true) (resume : Word) :
    raiseAll e es resume s = markExcepted (enterDebug (some (pickEvent e es)) (srr0For (pickEvent e es) resume)
      ((e :: es).foldl (fun t x => recordCause x t) s)) := by
  obtain ⟨b, z, hf⟩ := foldl_recordCause (e :: es) s
  unfold raiseAll routeEvent
  simp [h, ha, hf, hd]

/-- Outside debug mode, none of the events enabled or debug mode disabled: one event goes to its handler. -/
theorem raiseAll_handler {s : State} (h : s.mode.dm = false) {e : Event} {es : List Event}
    (ha : s.mode.dme = false ∨ (e :: es).any (fun x => eventEnabled x s) = false) (resume : Word) :
    raiseAll e es resume s = markExcepted (regularException (pickEvent e es) (srr0For (pickEvent e es) resume)
      ((e :: es).foldl (fun t x => recordCause x t) s)) := by
  obtain ⟨b, z, hf⟩ := foldl_recordCause (e :: es) s
  unfold raiseAll routeEvent
  rcases ha with ha | ha
  · simp [h, hf, ha]
  · simp only [h, ha, Bool.false_and]
    rfl

/-- Everything `raiseAll` can do: record in debug mode, enter debug mode, or go to a handler. -/
theorem raiseAll_cases (first : Event) (rest : List Event) (resume : Word) (s : State) :
    (s.mode.dm = true ∧ ∃ b p, raiseAll first rest resume s =
      markExcepted { s with dev := { s.dev with ecr := b }, port := { s.port with pInt := p } }) ∨
    (s.mode.dm = false ∧ s.mode.dme = true ∧ (first :: rest).any (fun e => eventEnabled e s) = true ∧
      ∃ e a b z, raiseAll first rest resume s =
        markExcepted (enterDebug (some e) a { s with dev := { s.dev with ecr := b }, mode := { s.mode with frz := z } })) ∨
    (s.mode.dm = false ∧ (s.mode.dme = false ∨ (first :: rest).any (fun e => eventEnabled e s) = false) ∧
      ∃ e a b z, raiseAll first rest resume s =
        markExcepted (regularException e a { s with dev := { s.dev with ecr := b }, mode := { s.mode with frz := z } })) := by
  cases hdm : s.mode.dm
  · obtain ⟨b, z, h⟩ := foldl_recordCause (first :: rest) s
    right
    cases hany : (first :: rest).any (fun e => eventEnabled e s) <;> cases hdme : s.mode.dme
    · exact Or.inr ⟨rfl, Or.inl rfl, _, _, b, z, by
        unfold raiseAll routeEvent; rw [h]; simp only [hdm, hany]; rfl⟩
    · exact Or.inr ⟨rfl, Or.inr rfl, _, _, b, z, by
        unfold raiseAll routeEvent; rw [h]; simp only [hdm, hany]; rfl⟩
    · exact Or.inr ⟨rfl, Or.inl rfl, _, _, b, z, by
        unfold raiseAll routeEvent; rw [h]; simp only [hdm, hany, hdme]; rfl⟩
    · exact Or.inl ⟨rfl, rfl, rfl, _, _, b, z, by
        unfold raiseAll routeEvent; rw [h]; simp only [hdm, hany, hdme]; rfl⟩
  · obtain ⟨b, p, h⟩ := foldl_recordInDebug (first :: rest) s
    exact Or.inl ⟨rfl, b, p, by unfold raiseAll; rw [h]; simp only [hdm]; rfl⟩

/-- Everything a machine check condition can do: be recorded in debug mode, enter debug mode, go to its handler, or lead
to the check stop state (R455, R460). -/
theorem raiseMachineCheck_cases (async : Bool) (resume : Word) (s : State) :
    (s.mode.dm = true ∧ raiseMachineCheck async resume s = markExcepted (recordInDebug (machineCheckEvent s) s)) ∨
    (s.mode.dm = false ∧ s.mode.dme = true ∧ eventEnabled (machineCheckEvent s) s = true ∧
      raiseMachineCheck async resume s =
        markExcepted (enterDebug (some (machineCheckEvent s)) (machineCheckSrr0 async resume s)
          (recordCause (machineCheckEvent s) s))) ∨
    (s.mode.dm = false ∧ s.cpu.msr.me = true ∧
      (s.mode.dme = false ∨ eventEnabled .machineCheck s = false) ∧
      raiseMachineCheck async resume s =
        markExcepted (regularException .machineCheck (machineCheckSrr0 async resume s) (recordCause .machineCheck s))) ∨
    (s.mode.dm = false ∧ s.cpu.msr.me = false ∧ (s.mode.dme = false ∨ eventEnabled .checkStop s = false) ∧
      raiseMachineCheck async resume s = markExcepted { recordCause .checkStop s with cpu.checkStop := true }) := by
  unfold raiseMachineCheck routeEvent machineCheckEvent
  cases hd : s.mode.dm <;> cases hm : s.cpu.msr.me <;> cases he : s.mode.dme <;>
    cases hc : eventEnabled .checkStop s <;> cases hk : eventEnabled .machineCheck s <;> simp [he, hc, hk]

/-! ### What no exception changes -/

@[simp] theorem raiseAll_gpr (e : Event) (es : List Event) (resume : Word) (s : State) :
    (raiseAll e es resume s).cpu.gpr = s.cpu.gpr := by
  rcases raiseAll_cases e es resume s with ⟨_, b, p, h⟩ | ⟨_, _, _, e', a, b, z, h⟩ | ⟨_, _, e', a, b, z, h⟩ <;>
    simp [h]

@[simp] theorem raise_gpr (e : Event) (resume : Word) (s : State) : (raise e resume s).cpu.gpr = s.cpu.gpr :=
  raiseAll_gpr e [] resume s

@[simp] theorem raiseAll_dar (e : Event) (es : List Event) (resume : Word) (s : State) :
    (raiseAll e es resume s).cpu.dar = s.cpu.dar := by
  rcases raiseAll_cases e es resume s with ⟨_, b, p, h⟩ | ⟨_, _, _, e', a, b, z, h⟩ | ⟨_, _, e', a, b, z, h⟩ <;>
    simp [h]

@[simp] theorem raise_dar (e : Event) (resume : Word) (s : State) : (raise e resume s).cpu.dar = s.cpu.dar :=
  raiseAll_dar e [] resume s

@[simp] theorem raiseAll_dsisr (e : Event) (es : List Event) (resume : Word) (s : State) :
    (raiseAll e es resume s).cpu.dsisr = s.cpu.dsisr := by
  rcases raiseAll_cases e es resume s with ⟨_, b, p, h⟩ | ⟨_, _, _, e', a, b, z, h⟩ | ⟨_, _, e', a, b, z, h⟩ <;>
    simp [h]

@[simp] theorem raise_dsisr (e : Event) (resume : Word) (s : State) : (raise e resume s).cpu.dsisr = s.cpu.dsisr :=
  raiseAll_dsisr e [] resume s

@[simp] theorem raiseAll_checkStop (e : Event) (es : List Event) (resume : Word) (s : State) :
    (raiseAll e es resume s).cpu.checkStop = s.cpu.checkStop := by
  rcases raiseAll_cases e es resume s with ⟨_, b, p, h⟩ | ⟨_, _, _, e', a, b, z, h⟩ | ⟨_, _, e', a, b, z, h⟩ <;>
    simp [h]

@[simp] theorem raise_checkStop (e : Event) (resume : Word) (s : State) : (raise e resume s).cpu.checkStop = s.cpu.checkStop :=
  raiseAll_checkStop e [] resume s

@[simp] theorem raiseAll_dpir (e : Event) (es : List Event) (resume : Word) (s : State) :
    (raiseAll e es resume s).cpu.dpir = s.cpu.dpir := by
  rcases raiseAll_cases e es resume s with ⟨_, b, p, h⟩ | ⟨_, _, _, e', a, b, z, h⟩ | ⟨_, _, e', a, b, z, h⟩ <;>
    simp [h]

@[simp] theorem raise_dpir (e : Event) (resume : Word) (s : State) : (raise e resume s).cpu.dpir = s.cpu.dpir :=
  raiseAll_dpir e [] resume s

@[simp] theorem raiseAll_mem (e : Event) (es : List Event) (resume : Word) (s : State) :
    (raiseAll e es resume s).mem = s.mem := by
  rcases raiseAll_cases e es resume s with ⟨_, b, p, h⟩ | ⟨_, _, _, e', a, b, z, h⟩ | ⟨_, _, e', a, b, z, h⟩ <;>
    simp [h]

@[simp] theorem raise_mem (e : Event) (resume : Word) (s : State) : (raise e resume s).mem = s.mem :=
  raiseAll_mem e [] resume s

@[simp] theorem raiseAll_ext (e : Event) (es : List Event) (resume : Word) (s : State) :
    (raiseAll e es resume s).ext = s.ext := by
  rcases raiseAll_cases e es resume s with ⟨_, b, p, h⟩ | ⟨_, _, _, e', a, b, z, h⟩ | ⟨_, _, e', a, b, z, h⟩ <;>
    simp [h]

@[simp] theorem raise_ext (e : Event) (resume : Word) (s : State) : (raise e resume s).ext = s.ext :=
  raiseAll_ext e [] resume s

@[simp] theorem raiseAll_syncedA (e : Event) (es : List Event) (resume : Word) (s : State) :
    (raiseAll e es resume s).syncedA = s.syncedA := by
  rcases raiseAll_cases e es resume s with ⟨_, b, p, h⟩ | ⟨_, _, _, e', a, b, z, h⟩ | ⟨_, _, e', a, b, z, h⟩ <;>
    simp [h]

@[simp] theorem raise_syncedA (e : Event) (resume : Word) (s : State) : (raise e resume s).syncedA = s.syncedA :=
  raiseAll_syncedA e [] resume s

@[simp] theorem raiseAll_syncedB (e : Event) (es : List Event) (resume : Word) (s : State) :
    (raiseAll e es resume s).syncedB = s.syncedB := by
  rcases raiseAll_cases e es resume s with ⟨_, b, p, h⟩ | ⟨_, _, _, e', a, b, z, h⟩ | ⟨_, _, e', a, b, z, h⟩ <;>
    simp [h]

@[simp] theorem raise_syncedB (e : Event) (resume : Word) (s : State) : (raise e resume s).syncedB = s.syncedB :=
  raiseAll_syncedB e [] resume s

@[simp] theorem raiseAll_nmbrkTaken (e : Event) (es : List Event) (resume : Word) (s : State) :
    (raiseAll e es resume s).nmbrkTaken = s.nmbrkTaken := by
  rcases raiseAll_cases e es resume s with ⟨_, b, p, h⟩ | ⟨_, _, _, e', a, b, z, h⟩ | ⟨_, _, e', a, b, z, h⟩ <;>
    simp [h]

@[simp] theorem raise_nmbrkTaken (e : Event) (resume : Word) (s : State) : (raise e resume s).nmbrkTaken = s.nmbrkTaken :=
  raiseAll_nmbrkTaken e [] resume s

@[simp] theorem raiseAll_dme (e : Event) (es : List Event) (resume : Word) (s : State) :
    (raiseAll e es resume s).mode.dme = s.mode.dme := by
  rcases raiseAll_cases e es resume s with ⟨_, b, p, h⟩ | ⟨_, _, _, e', a, b, z, h⟩ | ⟨_, _, e', a, b, z, h⟩ <;>
    simp [h]

@[simp] theorem raise_dme (e : Event) (resume : Word) (s : State) : (raise e resume s).mode.dme = s.mode.dme :=
  raiseAll_dme e [] resume s

/-! ### The next fetch in debug mode -/

theorem fetchFromPort_outside {s : State} (h : s.mode.dm = false) : fetchFromPort s = s := by
  simp [fetchFromPort, h]

/-- A CPU that waits for nothing waits for the tool's next instruction, with no download in progress. -/
theorem fetchFromPort_waits {s : State} (h : s.mode.dm = true) (hw : s.cpu.wait = CpuWait.none)
    (hd : s.port.dlip = false) : fetchFromPort s = { s with cpu.wait := .instr } := by
  simp [fetchFromPort, h, hw, hd]

/-- During a download the port supplies the loop's next instruction. -/
theorem fetchFromPort_supplies {s : State} (h : s.mode.dm = true) (hw : s.cpu.wait = CpuWait.none)
    (hd : s.port.dlip = true) :
    fetchFromPort s =
      { s with cpu.dpir := some (downloadWord s.port.dlStore), port.dlStore := !s.port.dlStore } := by
  simp [fetchFromPort, h, hw, hd]

theorem fetchFromPort_waiting {s : State} (hw : s.cpu.wait ≠ CpuWait.none) : fetchFromPort s = s := by
  simp [fetchFromPort, hw]

end Sys2Proof.Machine
end

