-- ==== Sys2Proof/Laws/Step.lean ====
section
/-! SUPPORT. What a step can do, said once: every way in which it answers a next state. -/

namespace Sys2Proof.Machine

/-! ### Decoding a CPU word -/

/-- What a CPU word can decode to. -/
theorem decodeWord_cases {w : Word} {i : Instr} (h : decodeWord w = .ok i) :
    (∃ n r, i = .mfspr r n) ∨ (∃ n r, i = .mtspr r n) ∨ (∃ r, i = .mtmsr r) ∨ i = .sync ∨ i = .rfi ∨ i = .isync ∨
      ∃ rs d ra, i = .stwu rs d ra := by
  unfold decodeWord at h
  split at h
  · unfold decodeOp31 at h
    split at h
    · split at h
      · split at h
        · injection h with h; exact Or.inl ⟨_, _, h.symm⟩
        · cases h
      · split at h
        · injection h with h; exact Or.inr (Or.inl ⟨_, _, h.symm⟩)
        · cases h
      · split at h
        · injection h with h; exact Or.inr (Or.inr (Or.inl ⟨_, h.symm⟩))
        · cases h
      · split at h
        · injection h with h; exact Or.inr (Or.inr (Or.inr (Or.inl h.symm)))
        · cases h
      · cases h
    · cases h
  · injection h with h
    exact Or.inr (Or.inr (Or.inr (Or.inr (Or.inr (Or.inr ⟨_, _, _, h.symm⟩)))))
  · split at h
    · injection h with h; exact Or.inr (Or.inr (Or.inr (Or.inr (Or.inl h.symm))))
    · split at h
      · injection h with h; exact Or.inr (Or.inr (Or.inr (Or.inr (Or.inr (Or.inl h.symm)))))
      · cases h
  · cases h

/-- A row of the table is executed as that row. -/
theorem decodeCpu_table {w : Word} {i : Instr} (h : decodeWord w = .ok i) : decodeCpu w = some (.table i) := by
  simp [decodeCpu, h]

/-- What a word that is no row of the table can be. -/
theorem decodeSave_cases {w : Word} {i : CpuInstr} (h : decodeSave w = some i) :
    (∃ rd n, i = .mfsprSave rd n) ∨ ∃ n rs, i = .mtsprSave n rs := by
  unfold decodeSave at h
  split at h
  · split at h
    · injection h with h; exact Or.inl ⟨_, _, h.symm⟩
    · injection h with h; exact Or.inr ⟨_, _, h.symm⟩
    · cases h
  · cases h

/-- What the CPU can execute for a word. -/
theorem decodeCpu_cases {w : Word} {i : CpuInstr} (h : decodeCpu w = some i) :
    (∃ j, decodeWord w = .ok j ∧ i = .table j) ∨ (∃ rd n, i = .mfsprSave rd n) ∨ ∃ n rs, i = .mtsprSave n rs := by
  unfold decodeCpu at h
  split at h
  · next j hj => injection h with h; exact Or.inl ⟨j, hj, h.symm⟩
  · exact Or.inr (decodeSave_cases h)

/-! ### The destination of an instruction that excepts in debug mode (R460) -/

@[simp] theorem drawSpr_pc (n : Spr) (s : State) : (drawSpr n s).cpu.pc = s.cpu.pc := by cases n <;> rfl

@[simp] theorem drawDestination_pc (i : Option CpuInstr) (s0 s : State) : (drawDestination i s0 s).cpu.pc = s.cpu.pc := by
  unfold drawDestination; cases destinationOf i with
  | nothing => rfl
  | gpr rd => rfl
  | spr n => exact drawSpr_pc n s
  | save n => cases n <;> rfl
  | store ra d => rfl
  | unknown => simp only [drawAt, drawUnknown, spend]

@[simp] theorem drawSpr_msr (n : Spr) (s : State) : (drawSpr n s).cpu.msr = s.cpu.msr := by cases n <;> rfl

@[simp] theorem drawDestination_msr (i : Option CpuInstr) (s0 s : State) : (drawDestination i s0 s).cpu.msr = s.cpu.msr := by
  unfold drawDestination; cases destinationOf i with
  | nothing => rfl
  | gpr rd => rfl
  | spr n => exact drawSpr_msr n s
  | save n => cases n <;> rfl
  | store ra d => rfl
  | unknown => simp only [drawAt, drawUnknown, spend]

@[simp] theorem drawSpr_srr0 (n : Spr) (s : State) : (drawSpr n s).cpu.srr0 = s.cpu.srr0 := by cases n <;> rfl

@[simp] theorem drawDestination_srr0 (i : Option CpuInstr) (s0 s : State) : (drawDestination i s0 s).cpu.srr0 = s.cpu.srr0 := by
  unfold drawDestination; cases destinationOf i with
  | nothing => rfl
  | gpr rd => rfl
  | spr n => exact drawSpr_srr0 n s
  | save n => cases n <;> rfl
  | store ra d => rfl
  | unknown => simp only [drawAt, drawUnknown, spend]

@[simp] theorem drawSpr_srr1 (n : Spr) (s : State) : (drawSpr n s).cpu.srr1 = s.cpu.srr1 := by cases n <;> rfl

@[simp] theorem drawDestination_srr1 (i : Option CpuInstr) (s0 s : State) : (drawDestination i s0 s).cpu.srr1 = s.cpu.srr1 := by
  unfold drawDestination; cases destinationOf i with
  | nothing => rfl
  | gpr rd => rfl
  | spr n => exact drawSpr_srr1 n s
  | save n => cases n <;> rfl
  | store ra d => rfl
  | unknown => simp only [drawAt, drawUnknown, spend]

@[simp] theorem drawSpr_checkStop (n : Spr) (s : State) : (drawSpr n s).cpu.checkStop = s.cpu.checkStop := by cases n <;> rfl

@[simp] theorem drawDestination_checkStop (i : Option CpuInstr) (s0 s : State) : (drawDestination i s0 s).cpu.checkStop = s.cpu.checkStop := by
  unfold drawDestination; cases destinationOf i with
  | nothing => rfl
  | gpr rd => rfl
  | spr n => exact drawSpr_checkStop n s
  | save n => cases n <;> rfl
  | store ra d => rfl
  | unknown => simp only [drawAt, drawUnknown, spend]

@[simp] theorem drawSpr_wait (n : Spr) (s : State) : (drawSpr n s).cpu.wait = s.cpu.wait := by cases n <;> rfl

@[simp] theorem drawDestination_wait (i : Option CpuInstr) (s0 s : State) : (drawDestination i s0 s).cpu.wait = s.cpu.wait := by
  unfold drawDestination; cases destinationOf i with
  | nothing => rfl
  | gpr rd => rfl
  | spr n => exact drawSpr_wait n s
  | save n => cases n <;> rfl
  | store ra d => rfl
  | unknown => simp only [drawAt, drawUnknown, spend]

@[simp] theorem drawSpr_dpir (n : Spr) (s : State) : (drawSpr n s).cpu.dpir = s.cpu.dpir := by cases n <;> rfl

@[simp] theorem drawDestination_dpir (i : Option CpuInstr) (s0 s : State) : (drawDestination i s0 s).cpu.dpir = s.cpu.dpir := by
  unfold drawDestination; cases destinationOf i with
  | nothing => rfl
  | gpr rd => rfl
  | spr n => exact drawSpr_dpir n s
  | save n => cases n <;> rfl
  | store ra d => rfl
  | unknown => simp only [drawAt, drawUnknown, spend]

@[simp] theorem drawSpr_flight (n : Spr) (s : State) : (drawSpr n s).cpu.flight = s.cpu.flight := by cases n <;> rfl

@[simp] theorem drawDestination_flight (i : Option CpuInstr) (s0 s : State) : (drawDestination i s0 s).cpu.flight = s.cpu.flight := by
  unfold drawDestination; cases destinationOf i with
  | nothing => rfl
  | gpr rd => rfl
  | spr n => exact drawSpr_flight n s
  | save n => cases n <;> rfl
  | store ra d => rfl
  | unknown => simp only [drawAt, drawUnknown, spend]

@[simp] theorem drawSpr_mode (n : Spr) (s : State) : (drawSpr n s).mode = s.mode := by cases n <;> rfl

@[simp] theorem drawDestination_mode (i : Option CpuInstr) (s0 s : State) : (drawDestination i s0 s).mode = s.mode := by
  unfold drawDestination; cases destinationOf i with
  | nothing => rfl
  | gpr rd => rfl
  | spr n => exact drawSpr_mode n s
  | save n => cases n <;> rfl
  | store ra d => rfl
  | unknown => simp only [drawAt, drawUnknown, spend]

@[simp] theorem drawSpr_trace (n : Spr) (s : State) : (drawSpr n s).trace = s.trace := by cases n <;> rfl

@[simp] theorem drawDestination_trace (i : Option CpuInstr) (s0 s : State) : (drawDestination i s0 s).trace = s.trace := by
  unfold drawDestination; cases destinationOf i with
  | nothing => rfl
  | gpr rd => rfl
  | spr n => exact drawSpr_trace n s
  | save n => cases n <;> rfl
  | store ra d => rfl
  | unknown => simp only [drawAt, drawUnknown, spend]

@[simp] theorem drawSpr_ext (n : Spr) (s : State) : (drawSpr n s).ext = s.ext := by cases n <;> rfl

@[simp] theorem drawDestination_ext (i : Option CpuInstr) (s0 s : State) : (drawDestination i s0 s).ext = s.ext := by
  unfold drawDestination; cases destinationOf i with
  | nothing => rfl
  | gpr rd => rfl
  | spr n => exact drawSpr_ext n s
  | save n => cases n <;> rfl
  | store ra d => rfl
  | unknown => simp only [drawAt, drawUnknown, spend]

@[simp] theorem drawSpr_nmbrkTaken (n : Spr) (s : State) : (drawSpr n s).nmbrkTaken = s.nmbrkTaken := by cases n <;> rfl

@[simp] theorem drawDestination_nmbrkTaken (i : Option CpuInstr) (s0 s : State) : (drawDestination i s0 s).nmbrkTaken = s.nmbrkTaken := by
  unfold drawDestination; cases destinationOf i with
  | nothing => rfl
  | gpr rd => rfl
  | spr n => exact drawSpr_nmbrkTaken n s
  | save n => cases n <;> rfl
  | store ra d => rfl
  | unknown => simp only [drawAt, drawUnknown, spend]

@[simp] theorem drawSpr_ecr (n : Spr) (s : State) : (drawSpr n s).dev.ecr = s.dev.ecr := by cases n <;> rfl

@[simp] theorem drawDestination_ecr (i : Option CpuInstr) (s0 s : State) : (drawDestination i s0 s).dev.ecr = s.dev.ecr := by
  unfold drawDestination; cases destinationOf i with
  | nothing => rfl
  | gpr rd => rfl
  | spr n => exact drawSpr_ecr n s
  | save n => cases n <;> rfl
  | store ra d => rfl
  | unknown => simp only [drawAt, drawUnknown, spend]

@[simp] theorem drawSpr_tecr (n : Spr) (s : State) : (drawSpr n s).port.tecr = s.port.tecr := by cases n <;> rfl

@[simp] theorem drawDestination_tecr (i : Option CpuInstr) (s0 s : State) : (drawDestination i s0 s).port.tecr = s.port.tecr := by
  unfold drawDestination; cases destinationOf i with
  | nothing => rfl
  | gpr rd => rfl
  | spr n => exact drawSpr_tecr n s
  | save n => cases n <;> rfl
  | store ra d => rfl
  | unknown => simp only [drawAt, drawUnknown, spend]

@[simp] theorem drawSpr_dlip (n : Spr) (s : State) : (drawSpr n s).port.dlip = s.port.dlip := by cases n <;> rfl

@[simp] theorem drawDestination_dlip (i : Option CpuInstr) (s0 s : State) : (drawDestination i s0 s).port.dlip = s.port.dlip := by
  unfold drawDestination; cases destinationOf i with
  | nothing => rfl
  | gpr rd => rfl
  | spr n => exact drawSpr_dlip n s
  | save n => cases n <;> rfl
  | store ra d => rfl
  | unknown => simp only [drawAt, drawUnknown, spend]

@[simp] theorem drawSpr_dlEnd (n : Spr) (s : State) : (drawSpr n s).port.dlEnd = s.port.dlEnd := by cases n <;> rfl

@[simp] theorem drawDestination_dlEnd (i : Option CpuInstr) (s0 s : State) : (drawDestination i s0 s).port.dlEnd = s.port.dlEnd := by
  unfold drawDestination; cases destinationOf i with
  | nothing => rfl
  | gpr rd => rfl
  | spr n => exact drawSpr_dlEnd n s
  | save n => cases n <;> rfl
  | store ra d => rfl
  | unknown => simp only [drawAt, drawUnknown, spend]

@[simp] theorem drawSpr_dlStore (n : Spr) (s : State) : (drawSpr n s).port.dlStore = s.port.dlStore := by cases n <;> rfl

@[simp] theorem drawDestination_dlStore (i : Option CpuInstr) (s0 s : State) : (drawDestination i s0 s).port.dlStore = s.port.dlStore := by
  unfold drawDestination; cases destinationOf i with
  | nothing => rfl
  | gpr rd => rfl
  | spr n => exact drawSpr_dlStore n s
  | save n => cases n <;> rfl
  | store ra d => rfl
  | unknown => simp only [drawAt, drawUnknown, spend]

@[simp] theorem drawSpr_pInt (n : Spr) (s : State) : (drawSpr n s).port.pInt = s.port.pInt := by cases n <;> rfl

@[simp] theorem drawDestination_pInt (i : Option CpuInstr) (s0 s : State) : (drawDestination i s0 s).port.pInt = s.port.pInt := by
  unfold drawDestination; cases destinationOf i with
  | nothing => rfl
  | gpr rd => rfl
  | spr n => exact drawSpr_pInt n s
  | save n => cases n <;> rfl
  | store ra d => rfl
  | unknown => simp only [drawAt, drawUnknown, spend]

@[simp] theorem drawSpr_pSeq (n : Spr) (s : State) : (drawSpr n s).port.pSeq = s.port.pSeq := by cases n <;> rfl

@[simp] theorem drawDestination_pSeq (i : Option CpuInstr) (s0 s : State) : (drawDestination i s0 s).port.pSeq = s.port.pSeq := by
  unfold drawDestination; cases destinationOf i with
  | nothing => rfl
  | gpr rd => rfl
  | spr n => exact drawSpr_pSeq n s
  | save n => cases n <;> rfl
  | store ra d => rfl
  | unknown => simp only [drawAt, drawUnknown, spend]

@[simp] theorem drawSpr_mem (n : Spr) (s : State) : (drawSpr n s).mem = s.mem := by cases n <;> rfl

/-- Drawing a destination keeps the canonical form of the memory. -/
theorem drawDestination_wf (i : Option CpuInstr) (s0 : State) {s : State} (h : Memory.wf s.mem = true) :
    Memory.wf (drawDestination i s0 s).mem = true := by
  unfold drawDestination
  cases destinationOf i with
  | nothing => exact h
  | gpr rd => exact h
  | spr n => exact (congrArg Memory.wf (drawSpr_mem n s)).trans h
  | save n => cases n <;> exact h
  | store ra d => exact memWriteWord_wf _ _ h
  | unknown => exact storeFree_wf 36 _ h _

/-- What the end of an instruction executed in debug mode adds: nothing, or the trace event as R460 records it. -/
theorem traceInDebug_cases (i : CpuInstr) (s t : State) :
    traceInDebug i s t = spend 1 t ∨
    (t.mode.dm = true ∧ t.cpu.wait = CpuWait.none ∧ t.cpu.flight.excepted = false ∧ (s.cpu.msr.se = true ∨ s.cpu.msr.be = true) ∧
      traceInDebug i s t = drawDestination (some i) s (spend 1 (recordInDebug .trace t))) := by
  unfold traceInDebug traced traceMode
  split
  · next h =>
    simp only [Bool.and_eq_true, Bool.or_eq_true, Bool.not_eq_true'] at h
    exact Or.inr ⟨h.1.1.1, eq_of_beq h.1.1.2, h.1.2, h.2.1.imp id And.left, rfl⟩
  · exact Or.inl rfl

/-- In neither trace mode no trace event follows. -/
theorem traceInDebug_off {s : State} (hs : s.cpu.msr.se = false) (hb : s.cpu.msr.be = false) (i : CpuInstr) (t : State) :
    traceInDebug i s t = spend 1 t := by
  simp [traceInDebug, traced, traceMode, hs, hb]

/-! ### The moves of the registers exceptions save into (R390) -/

@[simp] theorem readSave_writeSave (n : SaveReg) (v : Word) (s : State) : readSave n (writeSave n v s) = v := by
  cases n <;> rfl

theorem readSave_writeSave_ne {m n : SaveReg} (h : m ≠ n) (v : Word) (s : State) :
    readSave m (writeSave n v s) = readSave m s := by
  cases m <;> cases n <;> first | rfl | exact absurd rfl h

/-- A write of one of them changes no other state. -/
theorem writeSave_frame (n : SaveReg) (v : Word) (s : State) :
    ∃ c, writeSave n v s = { s with cpu := c } ∧ c.gpr = s.cpu.gpr ∧ c.pc = s.cpu.pc ∧ c.msr = s.cpu.msr ∧
      c.wait = s.cpu.wait ∧ c.dpir = s.cpu.dpir ∧ c.checkStop = s.cpu.checkStop ∧ c.flight = s.cpu.flight := by
  cases n <;> exact ⟨_, rfl, rfl, rfl, rfl, rfl, rfl, rfl, rfl⟩

/-- `drawSave` writes DAR or DSISR, or nothing. -/
theorem drawSave_cases (n : SaveReg) (s : State) :
    ((n = .srr0 ∨ n = .srr1) ∧ drawSave n s = s) ∨
    ((n = .dar ∨ n = .dsisr) ∧ drawSave n s = writeSave n (freeWord 0 s) s) := by
  cases n <;> simp [drawSave]

/-- What the CPU executes: a row of the table, or a move, which in user mode takes the program exception. -/
theorem execCpu_next {i : CpuInstr} {s t : State} (h : execCpu i s = .next t) :
    (∃ j, i = .table j ∧ exec j s = .next t) ∨
    (∃ rd n, i = .mfsprSave rd n ∧
      t = if s.cpu.msr.pr then moveException (fun u => writeGpr rd (freeWord 0 u) u) s
        else completeSequential (writeGpr rd (readSave n s) s)) ∨
    (∃ n rs, i = .mtsprSave n rs ∧
      t = if s.cpu.msr.pr then moveException (drawSave n) s
        else completeSequential (writeSave n (readGpr rs s) s)) := by
  cases i with
  | table j => exact Or.inl ⟨j, rfl, h⟩
  | mfsprSave rd n =>
    refine Or.inr (Or.inl ⟨rd, n, rfl, ?_⟩)
    simp only [execCpu, execMfsprSave] at h
    split at h <;> next hp => injection h with h; simp [hp, h]
  | mtsprSave n rs =>
    refine Or.inr (Or.inr ⟨n, rs, rfl, ?_⟩)
    simp only [execCpu, execMtsprSave] at h
    split at h <;> next hp => injection h with h; simp [hp, h]

/-- Outside debug mode the program exception of a move is that of every privileged instruction. -/
theorem moveException_outside {s : State} (h : s.mode.dm = false) (draw : State → State) :
    moveException draw s = programException s := by
  simp [moveException, h]

/-- In debug mode it is recorded, and the destination is drawn (R460). -/
theorem moveException_inDebug {s : State} (h : s.mode.dm = true) (draw : State → State) :
    moveException draw s = spend 1 (draw (markExcepted (recordInDebug .program s))) := by
  simp [moveException, programException, raise_inDebug, h]

/-! ### Steps -/

/-- What the step of the fetched instruction can do. -/
theorem runFetched_next {i : Option CpuInstr} {s t : State} (h : runFetched i s = .next t) :
    (instrBreakTaken i s = true ∧ t = finish s (takeInstrBreak i s)) ∨
    (instrBreakTaken i s = false ∧ ∃ e, s.ext.cpuExc = some e ∧
      t = finish s (settleIfm i s (raiseCpuExc e { passBreak s with ext.cpuExc := none }))) ∨
    (instrBreakTaken i s = false ∧ s.ext.cpuExc = none ∧ ∃ j u, i = some j ∧ execCpu j (passBreak s) = .next u ∧
      t = finish s (retire j s (settleIfm (some j) s u))) := by
  unfold runFetched at h
  split at h
  · next hb => injection h with h; exact Or.inl ⟨hb, h.symm⟩
  · next hb =>
    have hb' : instrBreakTaken i s = false := by simpa using hb
    split at h
    · next e he => injection h with h; exact Or.inr (Or.inl ⟨hb', e, he, h.symm⟩)
    · next he =>
      split at h
      · next j =>
        generalize hx : execCpu j (passBreak s) = o at h
        cases o with
        | next u => simp only [afterExec] at h; injection h with h; exact Or.inr (Or.inr ⟨hb', he, j, u, rfl, hx, h.symm⟩)
        | fault r => cases h
        | refused r => cases h
      · cases h

/-- What the CPU's step outside debug mode can do: take an asynchronous event, or run the fetched instruction. -/
theorem runStep_next {s t : State} (h : runStep s = .next t) :
    (∃ e es, pendingEvents s = e :: es ∧ t = takeAsync (pickEvent e es) s) ∨
    (pendingEvents s = [] ∧ ∃ w, memReadWord s.cpu.pc s.mem = some w ∧
      runFetched (decodeCpu w) (fetched s) = .next t) ∨
    (pendingEvents s = [] ∧ memReadWord s.cpu.pc s.mem = none ∧ s.ext.cpuExc.isSome = true ∧
      runFetched none (fetched s) = .next t) := by
  unfold runStep at h
  split at h
  · cases h
  · split at h
    · next e es hp => injection h with h; exact Or.inl ⟨e, es, hp, h.symm⟩
    · next hp =>
      split at h
      · cases h
      · split at h
        · next w hw => exact Or.inr (Or.inl ⟨hp, w, hw, h⟩)
        · next hw he => exact Or.inr (Or.inr ⟨hp, hw, by simp [he], h⟩)
        · cases h

/-- What the CPU's step in debug mode can do. -/
theorem debugStep_next {s t : State} (h : debugStep s = .next t) :
    (s.ext.nmi = true ∧ t = { recordInDebug .nmi s with ext.nmi := false }) ∨
    (s.ext.nmi = false ∧ s.ext.machineCheck = true ∧ t = { recordMachineCheck s with ext.machineCheck := false }) ∨
    (s.ext.nmi = false ∧ s.ext.machineCheck = false ∧ s.cpu.dpir = none ∧ t = fetchFromPort s) ∨
    (s.ext.nmi = false ∧ s.ext.machineCheck = false ∧ ∃ w e, s.cpu.dpir = some w ∧ s.ext.cpuExc = some e ∧
      t = finishDebug s (exceptInDebug e (decodeCpu w) { s with ext.cpuExc := none, cpu.dpir := none })) ∨
    (s.ext.nmi = false ∧ s.ext.machineCheck = false ∧ ∃ w i u, s.cpu.dpir = some w ∧ s.ext.cpuExc = none ∧ decodeCpu w = some i ∧
      execCpu i { s with cpu.dpir := none } = .next u ∧ t = finishDebug s (traceInDebug i s u)) := by
  unfold debugStep at h
  split at h
  · next hn => injection h with h; exact Or.inl ⟨hn, h.symm⟩
  · next hn =>
    have hn' : s.ext.nmi = false := by simpa using hn
    split at h
    · next hm => injection h with h; exact Or.inr (Or.inl ⟨hn', hm, h.symm⟩)
    · next hm =>
      have hm' : s.ext.machineCheck = false := by simpa using hm
      refine Or.inr (Or.inr ?_)
      split at h
      · next w hw =>
        unfold runDelivered at h
        split at h
        · next e he => injection h with h; exact Or.inr (Or.inl ⟨hn', hm', w, e, hw, he, h.symm⟩)
        · next he =>
          split at h
          · next i hi =>
            generalize hx : execCpu i _ = o at h
            cases o with
            | next u =>
              simp only [afterExecDebug] at h; injection h with h
              exact Or.inr (Or.inr ⟨hn', hm', w, i, u, hw, he, hi, hx, h.symm⟩)
            | fault r => cases h
            | refused r => cases h
          · cases h
      · next hw => injection h with h; exact Or.inl ⟨hn', hm', hw, h.symm⟩

/-- What the CPU's step can do. -/
theorem cpuStep_next {s t : State} (h : cpuStep s = .next t) :
    s.cpu.checkStop = false ∧ waitsForTool s = false ∧
      ((s.mode.dm = true ∧ debugStep s = .next t) ∨ (s.mode.dm = false ∧ runStep s = .next t)) := by
  unfold cpuStep at h
  split at h
  · cases h
  · next hc =>
    split at h
    · cases h
    · next hw =>
      refine ⟨by simpa using hc, by simpa using hw, ?_⟩
      split at h
      · next hd => exact Or.inl ⟨hd, h⟩
      · next hd => exact Or.inr ⟨by simpa using hd, h⟩

/-- What a change of an input line leaves of the machine but for a reset and the inputs themselves. -/
def LineChange (s t : State) : Prop :=
  ∃ x, t = { s with ext := x } ∨
    (s.mode.dm = true ∧ (t = recordInDebug .nmi { s with ext := x } ∨ t = recordMachineCheck { s with ext := x }))

/-- What a step can do: the CPU's step, a transmission taken while ready is asserted, a change of the inputs, or a
reset. -/
theorem step_next {s t : State} (h : step s = .next t) :
    cpuStep s = .next t ∨
    (∃ rest, s.ext.inputs = .run :: rest ∧ cpuStep { s with ext.inputs := rest } = .next t) ∨
    (∃ f rest i, s.ext.inputs = .frame f :: rest ∧ portReady s = true ∧ decode (frameCode f) = .ok i ∧
      exec i { s with ext.inputs := rest } = .next t) ∨
    LineChange s t ∨
    (∃ k rest, s.ext.inputs = .reset k :: rest ∧ t = resetMachine k { s with ext.inputs := rest }) := by
  unfold step stepMachine at h
  split at h
  · exact Or.inl h
  · next f rest hi =>
    split at h
    · next hr =>
      unfold frameStep at h
      split at h
      · next i hd => exact Or.inr (Or.inr (Or.inl ⟨f, rest, i, hi, hr, hd, h⟩))
      · injection h with h; exact Or.inr (Or.inr (Or.inr (Or.inl ⟨_, Or.inl h.symm⟩)))
      · cases h
      · cases h
    · exact Or.inl h
  · next rest hi =>
    unfold runToken at h
    split at h
    · injection h with h; exact Or.inr (Or.inr (Or.inr (Or.inl ⟨_, Or.inl h.symm⟩)))
    · exact Or.inr (Or.inl ⟨rest, hi, h⟩)
  · next rest hi =>
    injection h with h
    refine Or.inr (Or.inr (Or.inr (Or.inl ?_)))
    unfold assertNmi at h
    split at h
    · next hd => exact ⟨_, Or.inr ⟨hd, Or.inl h.symm⟩⟩
    · exact ⟨_, Or.inl h.symm⟩
  · next rest hi =>
    injection h with h
    refine Or.inr (Or.inr (Or.inr (Or.inl ?_)))
    unfold assertMachineCheck at h
    split at h
    · next hd => exact ⟨_, Or.inr ⟨hd, Or.inr h.symm⟩⟩
    · exact ⟨_, Or.inl h.symm⟩
  all_goals first
    | (injection h with h; exact Or.inr (Or.inr (Or.inr (Or.inl ⟨_, Or.inl h.symm⟩))))
    | (next k rest hi => injection h with h; exact Or.inr (Or.inr (Or.inr (Or.inr ⟨k, rest, hi, h.symm⟩))))

end Sys2Proof.Machine
end

