-- ==== Sys2Proof/Laws/Exec.lean ====
section
/-! SUPPORT. What each group of instructions can do, said once: the callers cite these and unfold no meaning. -/

namespace Sys2Proof.Machine

/-! ### mfspr and mtspr -/

/-- `mfspr` of a stored register: the program exception in user mode, else a value in rD. -/
theorem exec_mfspr {n : Spr} (hn : n ≠ .dpdr) (rd : Reg) (s : State) :
    ∃ v k, exec (.mfspr rd n) s =
      if s.cpu.msr.pr then .next (programException s)
      else .next (completeSequential (writeGpr rd v (spend k (if n = .ecr then clearEcrOnRead s else s)))) := by
  cases n <;> first
    | exact absurd rfl hn
    | exact ⟨_, 0, rfl⟩
    | exact ⟨_, 1, rfl⟩
    | exact ⟨_, 2, rfl⟩

/-- The state in which the write of a register has been performed. -/
def writtenState (n : Spr) (v : Word) (s : State) : State :=
  match n with
  | .counta => { s with dev := sprWritten .counta v s.dev, syncedA := false }
  | .countb => { s with dev := sprWritten .countb v s.dev, syncedB := false }
  | .dpdr => writeDpdr v s
  | n => { s with dev := sprWritten n v s.dev }

/-- How an `mtspr` completes (R422). -/
def mtsprComplete (n : Spr) : State → State :=
  if sprMayBeMarked n then completeMaybeMarked else completeSequential

/-- `mtspr`: the program exception in user mode, nothing under debug mode enable outside debug mode, else the
write (R393). -/
theorem exec_mtspr (n : Spr) (rs : Reg) (s : State) :
    exec (.mtspr rs n) s =
      if s.cpu.msr.pr then .next (programException s)
      else if s.mode.dme && !s.mode.dm then .next (mtsprComplete n s)
      else .next (mtsprComplete n (writtenState n (readGpr rs s) s)) := by
  cases n <;> rfl

@[simp] theorem writtenState_cpu (n : Spr) (v : Word) (s : State) : (writtenState n v s).cpu = s.cpu := by
  cases n <;> (try rfl)
  unfold writtenState writeDpdr; dsimp only; split <;> rfl

@[simp] theorem writtenState_dev (n : Spr) (v : Word) (s : State) :
    (writtenState n v s).dev = sprWritten n v s.dev := by
  cases n <;> (try rfl)
  unfold writtenState writeDpdr; dsimp only; split <;> rfl

@[simp] theorem writtenState_mode (n : Spr) (v : Word) (s : State) : (writtenState n v s).mode = s.mode := by
  cases n <;> (try rfl)
  unfold writtenState writeDpdr; dsimp only; split <;> rfl

@[simp] theorem writtenState_trace (n : Spr) (v : Word) (s : State) : (writtenState n v s).trace = s.trace := by
  cases n <;> (try rfl)
  unfold writtenState writeDpdr; dsimp only; split <;> rfl

@[simp] theorem writtenState_ext (n : Spr) (v : Word) (s : State) : (writtenState n v s).ext = s.ext := by
  cases n <;> (try rfl)
  unfold writtenState writeDpdr; dsimp only; split <;> rfl

@[simp] theorem writtenState_mem (n : Spr) (v : Word) (s : State) : (writtenState n v s).mem = s.mem := by
  cases n <;> (try rfl)
  unfold writtenState writeDpdr; dsimp only; split <;> rfl

/-- Both ways of completing an `mtspr` leave the same state but for the trace and the free values. -/
theorem mtsprComplete_cases (n : Spr) (s : State) :
    mtsprComplete n s = completeSequential s ∨ mtsprComplete n s = completeMaybeMarked s := by
  unfold mtsprComplete; split <;> simp

@[simp] theorem mtsprComplete_dev (n : Spr) (s : State) : (mtsprComplete n s).dev = s.dev := by
  rcases mtsprComplete_cases n s with h | h <;> simp [h]

@[simp] theorem mtsprComplete_mode (n : Spr) (s : State) : (mtsprComplete n s).mode = s.mode := by
  rcases mtsprComplete_cases n s with h | h <;> simp [h]

@[simp] theorem mtsprComplete_port (n : Spr) (s : State) : (mtsprComplete n s).port = s.port := by
  rcases mtsprComplete_cases n s with h | h <;> simp [h]

@[simp] theorem mtsprComplete_mem (n : Spr) (s : State) : (mtsprComplete n s).mem = s.mem := by
  rcases mtsprComplete_cases n s with h | h <;> simp [h]

@[simp] theorem mtsprComplete_ext (n : Spr) (s : State) : (mtsprComplete n s).ext = s.ext := by
  rcases mtsprComplete_cases n s with h | h <;> simp [h]

/-- Completing an instruction changes the pc alone of the CPU's state. -/
theorem mtsprComplete_cpu (n : Spr) (s : State) :
    (mtsprComplete n s).cpu = { s.cpu with pc := s.cpu.pc + 4#32 } := by
  rcases mtsprComplete_cases n s with h | h
  · rw [h, completeSequential, reportType_cpu]; rfl
  · rw [h, completeMaybeMarked]
    split
    · rfl
    · rw [spend_cpu, markNext_cpu, reportType_cpu]; rfl

/-! ### Transmissions -/

/-- The effects of the transmissions. -/
inductive Effect : (State → State) → Prop where
  | nop : Effect (fun t => t)
  | instr (w : Word) : Effect (instrEffect w)
  | data (v : Word) : Effect (dataEffect v)
  | tecr (l : TecrLayout) (d : BitVec 7) : Effect (tecrEffect l d)
  | brk (n m : Bool) : Effect (brkEffect n m)
  | start : Effect startDownloadEffect
  | stop : Effect endDownloadEffect
  | reset (k : ResetKind) : Effect (resetMachine k)

/-- Every transmission is one exchange with one of these effects. -/
theorem exec_transmission {i : Instr} (h : isTransmission i = true) :
    ∃ f e, Effect e ∧ ∀ s, exec i s = transmit f e s := by
  cases i <;> first
    | (simp [isTransmission, encode] at h; done)
    | exact ⟨_, _, .nop, fun _ => rfl⟩
    | exact ⟨_, _, .instr _, fun _ => rfl⟩
    | exact ⟨_, _, .data _, fun _ => rfl⟩
    | exact ⟨_, _, .tecr _ _, fun _ => rfl⟩
    | exact ⟨_, _, .brk _ _, fun _ => rfl⟩
    | exact ⟨_, _, .start, fun _ => rfl⟩
    | exact ⟨_, _, .stop, fun _ => rfl⟩
    | exact ⟨_, _, .reset _, fun _ => rfl⟩

/-- What a frame decodes to is a transmission. -/
theorem decode_frame_transmission {f : Frame} {i : Instr} (h : decode (frameCode f) = .ok i) :
    isTransmission i = true := by
  cases f with
  | short b =>
    simp only [frameCode, decode, decodeDp10] at h
    split at h
    · split at h
      · injection h with h
        subst h
        unfold decodeData7
        split
        · unfold decodeCommand
          split <;> (try split) <;> rfl
        · rfl
      · cases h
    · cases h
  | long b =>
    simp only [frameCode, decode, decodeDp35] at h
    split at h
    · split at h
      · cases h
      · split at h <;> (injection h with h; subst h; rfl)
    · cases h

end Sys2Proof.Machine
end

