-- ==== Sys2Proof/Laws/PerInstr.lean ====
section
/-! SUPPORT. A property of every instruction, one lemma per constructor: the form of its encoding
(30_encoding.md R141, R157). -/

namespace Sys2Proof.Laws.EncodeFormat

/-- A CPU word has primary opcode 31, 37 or 19; a 10-bit frame begins with the start bit and mode 1, a 35-bit frame
with the start bit and mode 0. -/
def codeForm : Code → Bool
  | .word w => w.extractLsb' 26 6 == 31#6 || w.extractLsb' 26 6 == 37#6 || w.extractLsb' 26 6 == 19#6
  | .dp10 b => b.getMsbD 0 && b.getMsbD 1
  | .dp35 b => b.getMsbD 0 && !b.getMsbD 1

/-- The encoding of an instruction has its form. -/
def Statement (i : Instr) : Prop := codeForm (encode i) = true

theorem instr (w : Word) : Statement (.instr w) := by
  simp only [Statement, encode, codeForm, BitVec.getMsbD, BitVec.getLsbD_append]; rfl
theorem data (w : Word) : Statement (.data w) := by
  simp only [Statement, encode, codeForm, BitVec.getMsbD, BitVec.getLsbD_append]; rfl
theorem tecr (d : BitVec 7) : Statement (.tecr d) := by
  simp only [Statement, encode, codeForm, BitVec.getMsbD, BitVec.getLsbD_append]; rfl
theorem cmdNop (x : BitVec 2) : Statement (.cmdNop x) := by
  revert x; unfold Statement; decide
theorem cmdHreset (x : BitVec 2) : Statement (.cmdHreset x) := by
  revert x; unfold Statement; decide
theorem cmdSreset (x : BitVec 2) : Statement (.cmdSreset x) := by
  revert x; unfold Statement; decide
theorem cmdReserved0x00011 (x : BitVec 1) : Statement (.cmdReserved0x00011 x) := by
  revert x; unfold Statement; decide
theorem cmdEndDownload : Statement .cmdEndDownload := by
  unfold Statement; decide
theorem cmdStartDownload : Statement .cmdStartDownload := by
  unfold Statement; decide
theorem cmdReserved00100 (x : BitVec 2) : Statement (.cmdReserved00100 x) := by
  revert x; unfold Statement; decide
theorem cmdReserved00101 (x : BitVec 2) : Statement (.cmdReserved00101 x) := by
  revert x; unfold Statement; decide
theorem cmdReserved00110 (x : BitVec 2) : Statement (.cmdReserved00110 x) := by
  revert x; unfold Statement; decide
theorem cmdReserved00111 (x : BitVec 2) : Statement (.cmdReserved00111 x) := by
  revert x; unfold Statement; decide
theorem cmdReserved01000 (x : BitVec 2) : Statement (.cmdReserved01000 x) := by
  revert x; unfold Statement; decide
theorem cmdReserved01001 (x : BitVec 2) : Statement (.cmdReserved01001 x) := by
  revert x; unfold Statement; decide
theorem cmdReserved01010 (x : BitVec 2) : Statement (.cmdReserved01010 x) := by
  revert x; unfold Statement; decide
theorem cmdReserved01011 (x : BitVec 2) : Statement (.cmdReserved01011 x) := by
  revert x; unfold Statement; decide
theorem cmdReserved01100 (x : BitVec 2) : Statement (.cmdReserved01100 x) := by
  revert x; unfold Statement; decide
theorem cmdReserved01101 (x : BitVec 2) : Statement (.cmdReserved01101 x) := by
  revert x; unfold Statement; decide
theorem cmdReserved01110 (x : BitVec 2) : Statement (.cmdReserved01110 x) := by
  revert x; unfold Statement; decide
theorem cmdReserved01111 (x : BitVec 2) : Statement (.cmdReserved01111 x) := by
  revert x; unfold Statement; decide
theorem cmdReserved10000 (x : BitVec 2) : Statement (.cmdReserved10000 x) := by
  revert x; unfold Statement; decide
theorem cmdReserved10001 (x : BitVec 2) : Statement (.cmdReserved10001 x) := by
  revert x; unfold Statement; decide
theorem cmdReserved10010 (x : BitVec 2) : Statement (.cmdReserved10010 x) := by
  revert x; unfold Statement; decide
theorem cmdReserved10011 (x : BitVec 2) : Statement (.cmdReserved10011 x) := by
  revert x; unfold Statement; decide
theorem cmdReserved10100 (x : BitVec 2) : Statement (.cmdReserved10100 x) := by
  revert x; unfold Statement; decide
theorem cmdReserved10101 (x : BitVec 2) : Statement (.cmdReserved10101 x) := by
  revert x; unfold Statement; decide
theorem cmdReserved10110 (x : BitVec 2) : Statement (.cmdReserved10110 x) := by
  revert x; unfold Statement; decide
theorem cmdReserved10111 (x : BitVec 2) : Statement (.cmdReserved10111 x) := by
  revert x; unfold Statement; decide
theorem cmdReserved11000 (x : BitVec 2) : Statement (.cmdReserved11000 x) := by
  revert x; unfold Statement; decide
theorem cmdReserved11001 (x : BitVec 2) : Statement (.cmdReserved11001 x) := by
  revert x; unfold Statement; decide
theorem cmdReserved11010 (x : BitVec 2) : Statement (.cmdReserved11010 x) := by
  revert x; unfold Statement; decide
theorem cmdReserved11011 (x : BitVec 2) : Statement (.cmdReserved11011 x) := by
  revert x; unfold Statement; decide
theorem cmdReserved11100 (x : BitVec 2) : Statement (.cmdReserved11100 x) := by
  revert x; unfold Statement; decide
theorem cmdReserved11101 (x : BitVec 2) : Statement (.cmdReserved11101 x) := by
  revert x; unfold Statement; decide
theorem cmdReserved11110 (x : BitVec 2) : Statement (.cmdReserved11110 x) := by
  revert x; unfold Statement; decide
theorem cmdBrk (n m : Bool) : Statement (.cmdBrk n m) := by
  cases n <;> cases m <;> (unfold Statement; decide)
theorem mfsprCmpa (rd : Reg) : Statement (.mfsprCmpa rd) := by
  revert rd; unfold Statement; decide
theorem mtsprCmpa (rs : Reg) : Statement (.mtsprCmpa rs) := by
  revert rs; unfold Statement; decide
theorem mfsprCmpb (rd : Reg) : Statement (.mfsprCmpb rd) := by
  revert rd; unfold Statement; decide
theorem mtsprCmpb (rs : Reg) : Statement (.mtsprCmpb rs) := by
  revert rs; unfold Statement; decide
theorem mfsprCmpc (rd : Reg) : Statement (.mfsprCmpc rd) := by
  revert rd; unfold Statement; decide
theorem mtsprCmpc (rs : Reg) : Statement (.mtsprCmpc rs) := by
  revert rs; unfold Statement; decide
theorem mfsprCmpd (rd : Reg) : Statement (.mfsprCmpd rd) := by
  revert rd; unfold Statement; decide
theorem mtsprCmpd (rs : Reg) : Statement (.mtsprCmpd rs) := by
  revert rs; unfold Statement; decide
theorem mfsprEcr (rd : Reg) : Statement (.mfsprEcr rd) := by
  revert rd; unfold Statement; decide
theorem mtsprEcr (rs : Reg) : Statement (.mtsprEcr rs) := by
  revert rs; unfold Statement; decide
theorem mfsprDer (rd : Reg) : Statement (.mfsprDer rd) := by
  revert rd; unfold Statement; decide
theorem mtsprDer (rs : Reg) : Statement (.mtsprDer rs) := by
  revert rs; unfold Statement; decide
theorem mfsprCounta (rd : Reg) : Statement (.mfsprCounta rd) := by
  revert rd; unfold Statement; decide
theorem mtsprCounta (rs : Reg) : Statement (.mtsprCounta rs) := by
  revert rs; unfold Statement; decide
theorem mfsprCountb (rd : Reg) : Statement (.mfsprCountb rd) := by
  revert rd; unfold Statement; decide
theorem mtsprCountb (rs : Reg) : Statement (.mtsprCountb rs) := by
  revert rs; unfold Statement; decide
theorem mfsprCmpe (rd : Reg) : Statement (.mfsprCmpe rd) := by
  revert rd; unfold Statement; decide
theorem mtsprCmpe (rs : Reg) : Statement (.mtsprCmpe rs) := by
  revert rs; unfold Statement; decide
theorem mfsprCmpf (rd : Reg) : Statement (.mfsprCmpf rd) := by
  revert rd; unfold Statement; decide
theorem mtsprCmpf (rs : Reg) : Statement (.mtsprCmpf rs) := by
  revert rs; unfold Statement; decide
theorem mfsprCmpg (rd : Reg) : Statement (.mfsprCmpg rd) := by
  revert rd; unfold Statement; decide
theorem mtsprCmpg (rs : Reg) : Statement (.mtsprCmpg rs) := by
  revert rs; unfold Statement; decide
theorem mfsprCmph (rd : Reg) : Statement (.mfsprCmph rd) := by
  revert rd; unfold Statement; decide
theorem mtsprCmph (rs : Reg) : Statement (.mtsprCmph rs) := by
  revert rs; unfold Statement; decide
theorem mfsprLctrl1 (rd : Reg) : Statement (.mfsprLctrl1 rd) := by
  revert rd; unfold Statement; decide
theorem mtsprLctrl1 (rs : Reg) : Statement (.mtsprLctrl1 rs) := by
  revert rs; unfold Statement; decide
theorem mfsprLctrl2 (rd : Reg) : Statement (.mfsprLctrl2 rd) := by
  revert rd; unfold Statement; decide
theorem mtsprLctrl2 (rs : Reg) : Statement (.mtsprLctrl2 rs) := by
  revert rs; unfold Statement; decide
theorem mfsprIctrl (rd : Reg) : Statement (.mfsprIctrl rd) := by
  revert rd; unfold Statement; decide
theorem mtsprIctrl (rs : Reg) : Statement (.mtsprIctrl rs) := by
  revert rs; unfold Statement; decide
theorem mfsprBar (rd : Reg) : Statement (.mfsprBar rd) := by
  revert rd; unfold Statement; decide
theorem mtsprBar (rs : Reg) : Statement (.mtsprBar rs) := by
  revert rs; unfold Statement; decide
theorem mfsprDpdr (rd : Reg) : Statement (.mfsprDpdr rd) := by
  revert rd; unfold Statement; decide
theorem mtsprDpdr (rs : Reg) : Statement (.mtsprDpdr rs) := by
  revert rs; unfold Statement; decide
theorem rfi : Statement .rfi := by
  unfold Statement; decide
theorem mtmsr (rs : Reg) : Statement (.mtmsr rs) := by
  revert rs; unfold Statement; decide
theorem isync : Statement .isync := by
  unfold Statement; decide
theorem sync : Statement .sync := by
  unfold Statement; decide
theorem stwu (rs : Reg) (d : Int) (ra : Reg) : Statement (.stwu rs d ra) := by
  have h : (37#6 ++ rs ++ ra ++ BitVec.ofInt 16 d).extractLsb' 26 6 = 37#6 := by
    apply BitVec.eq_of_getLsbD_eq
    intro i hi
    have h16 : ¬ 26 + i < 16 := by omega
    have h21 : ¬ 26 + i - 16 < 5 := by omega
    have h26 : ¬ 26 + i - 16 - 5 < 5 := by omega
    have hi' : 26 + i - 16 - 5 - 5 = i := by omega
    simp only [BitVec.getLsbD_append, BitVec.getLsbD_extractLsb', hi, h16, h21, h26, hi', decide_true,
      Bool.true_and, if_false]
  simp only [Statement, encode, codeForm, h]
  decide

end Sys2Proof.Laws.EncodeFormat
end

