-- ==== Sys2Proof/Laws/Trace.lean ====
section
/-! SUPPORT. What the external trace hardware captures. -/

namespace Sys2Proof.Machine

@[simp] theorem sampled_vsyncReport : sampled vsyncReport = true := rfl

@[simp] theorem uptoVsync_zero (es : List TraceEvent) : uptoVsync 0 es = [] := by
  cases es <;> rfl

/-- Sampling up to the next report takes what stands before it, the report, and what follows up to one report less. -/
theorem uptoVsync_append {before : List TraceEvent} (h : vsyncReport ∉ before) (n : Nat) (after : List TraceEvent) :
    uptoVsync (n + 1) (before ++ vsyncReport :: after) = before ++ vsyncReport :: uptoVsync n after := by
  induction before with
  | nil => simp [uptoVsync]
  | cons e es ih =>
    simp only [List.mem_cons, not_or] at h
    have : (e == vsyncReport) = false := beq_eq_false_iff_ne.mpr (Ne.symm h.1)
    simp [uptoVsync, this, ih h.2]

/-- What stands before the first report is not sampled for a window trace. -/
theorem dropWhile_vsyncReport {before : List TraceEvent} (h : vsyncReport ∉ before) (after : List TraceEvent) :
    (before ++ vsyncReport :: after).dropWhile (fun e => e != vsyncReport) = vsyncReport :: after := by
  induction before with
  | nil => simp
  | cons e es ih =>
    simp only [List.mem_cons, not_or] at h
    have : (e != vsyncReport) = true := bne_iff_ne.mpr (Ne.symm h.1)
    simp [this, ih h.2]

end Sys2Proof.Machine
end

