-- ==== Sys2Proof/Tests/Slice0.lean ====
section
/-! SUPPORT. Our own tests: the decoding of words written out from the spec, the ill-formed terms, the vectors of
95_test_vectors.md on one step or one operation, and a witness for each obligation that has hypotheses. -/

open Sys2Proof Sys2Proof.Machine

namespace Sys2Proof.Machine.Tests

/-! ### Decoding: words written out from 30_encoding.md R141 to R146 and R157 to R162 -/

/-- Every pair is a code and the instruction it stands for. -/
def decodesAll (l : List (Code × Instr)) : Bool := l.all (fun p => decide (decode p.1 = .ok p.2))

/-- Frames of 35 bits: V12, V15 and X6 of 95_test_vectors.md. -/
theorem test_decode_dp35 : decodesAll
    [(.dp35 0b10001001100000000000000000001100100#35, .instr 0x4C000064#32),
      (.dp35 0b10001111111111101101001101010100110#35, .instr 0x7FF69AA6#32),
      (.dp35 0b10100000000000000000011111111111100#35, .data 0x00003FFC#32),
      (.dp35 0b10110101010101010100000000000000001#35, .data 0xAAAA0001#32)] = true := by decide

/-- Frames of 10 bits with a function: V1 to V9. -/
theorem test_decode_dp10 : decodesAll
    [(.dp10 0b1101000001#10, .tecr 0b1000001#7), (.dp10 0b1100000110#10, .tecr 0b0000110#7),
      (.dp10 0b1110000000#10, .cmdNop 0#2), (.dp10 0b1111000000#10, .cmdNop 2#2),
      (.dp10 0b1110000001#10, .cmdHreset 0#2), (.dp10 0b1110000010#10, .cmdSreset 0#2),
      (.dp10 0b1111000011#10, .cmdEndDownload), (.dp10 0b1111100011#10, .cmdStartDownload),
      (.dp10 0b1111011111#10, .cmdBrk true false), (.dp10 0b1110111111#10, .cmdBrk false true),
      (.dp10 0b1110011111#10, .cmdBrk false false)] = true := by decide

/-- The reserved commands (R145, V11). -/
theorem test_decode_reserved : decodesAll
    [(.dp10 0b1110000011#10, .cmdReserved0x00011 0#1), (.dp10 0b1110100011#10, .cmdReserved0x00011 1#1),
      (.dp10 0b1110000100#10, .cmdReserved00100 0#2), (.dp10 0b1110100101#10, .cmdReserved00101 1#2),
      (.dp10 0b1111000110#10, .cmdReserved00110 2#2), (.dp10 0b1111100111#10, .cmdReserved00111 3#2),
      (.dp10 0b1110001000#10, .cmdReserved01000 0#2), (.dp10 0b1110101001#10, .cmdReserved01001 1#2),
      (.dp10 0b1111001010#10, .cmdReserved01010 2#2), (.dp10 0b1111101011#10, .cmdReserved01011 3#2),
      (.dp10 0b1110001100#10, .cmdReserved01100 0#2), (.dp10 0b1110101101#10, .cmdReserved01101 1#2),
      (.dp10 0b1111001110#10, .cmdReserved01110 2#2), (.dp10 0b1111101111#10, .cmdReserved01111 3#2),
      (.dp10 0b1110010000#10, .cmdReserved10000 0#2), (.dp10 0b1110110001#10, .cmdReserved10001 1#2),
      (.dp10 0b1111010010#10, .cmdReserved10010 2#2), (.dp10 0b1111110011#10, .cmdReserved10011 3#2),
      (.dp10 0b1110010100#10, .cmdReserved10100 0#2), (.dp10 0b1110110101#10, .cmdReserved10101 1#2),
      (.dp10 0b1111010110#10, .cmdReserved10110 2#2), (.dp10 0b1111110111#10, .cmdReserved10111 3#2),
      (.dp10 0b1110011000#10, .cmdReserved11000 0#2), (.dp10 0b1110111001#10, .cmdReserved11001 1#2),
      (.dp10 0b1111011010#10, .cmdReserved11010 2#2), (.dp10 0b1111111011#10, .cmdReserved11011 3#2),
      (.dp10 0b1110011100#10, .cmdReserved11100 0#2), (.dp10 0b1110111101#10, .cmdReserved11101 1#2),
      (.dp10 0b1111011110#10, .cmdReserved11110 2#2)] = true := by decide

/-- `mfspr`: 31, rD, the SPR number with its halves swapped, 339, 0 (R158, R160). -/
theorem test_decode_mfspr : decodesAll
    [(.word 0b011111_00011_10000_00100_0101010011_0#32, .mfsprCmpa 3#5),
      (.word 0b011111_00100_10001_00100_0101010011_0#32, .mfsprCmpb 4#5),
      (.word 0b011111_00101_10010_00100_0101010011_0#32, .mfsprCmpc 5#5),
      (.word 0b011111_00110_10011_00100_0101010011_0#32, .mfsprCmpd 6#5),
      (.word 0b011111_00111_10100_00100_0101010011_0#32, .mfsprEcr 7#5),
      (.word 0b011111_01000_10101_00100_0101010011_0#32, .mfsprDer 8#5),
      (.word 0b011111_01001_10110_00100_0101010011_0#32, .mfsprCounta 9#5),
      (.word 0b011111_01010_10111_00100_0101010011_0#32, .mfsprCountb 10#5),
      (.word 0b011111_01011_11000_00100_0101010011_0#32, .mfsprCmpe 11#5),
      (.word 0b011111_01100_11001_00100_0101010011_0#32, .mfsprCmpf 12#5),
      (.word 0b011111_01101_11010_00100_0101010011_0#32, .mfsprCmpg 13#5),
      (.word 0b011111_01110_11011_00100_0101010011_0#32, .mfsprCmph 14#5),
      (.word 0b011111_01111_11100_00100_0101010011_0#32, .mfsprLctrl1 15#5),
      (.word 0b011111_10000_11101_00100_0101010011_0#32, .mfsprLctrl2 16#5),
      (.word 0b011111_10001_11110_00100_0101010011_0#32, .mfsprIctrl 17#5),
      (.word 0b011111_10010_11111_00100_0101010011_0#32, .mfsprBar 18#5),
      (.word 0b011111_10011_10110_10011_0101010011_0#32, .mfsprDpdr 19#5)] = true := by decide

/-- `mtspr`: 31, rS, the SPR number with its halves swapped, 467, 0 (R159, R160). -/
theorem test_decode_mtspr : decodesAll
    [(.word 0b011111_11111_10000_00100_0111010011_0#32, .mtsprCmpa 31#5),
      (.word 0b011111_11110_10001_00100_0111010011_0#32, .mtsprCmpb 30#5),
      (.word 0b011111_11101_10010_00100_0111010011_0#32, .mtsprCmpc 29#5),
      (.word 0b011111_11100_10011_00100_0111010011_0#32, .mtsprCmpd 28#5),
      (.word 0b011111_11011_10100_00100_0111010011_0#32, .mtsprEcr 27#5),
      (.word 0b011111_11010_10101_00100_0111010011_0#32, .mtsprDer 26#5),
      (.word 0b011111_11001_10110_00100_0111010011_0#32, .mtsprCounta 25#5),
      (.word 0b011111_11000_10111_00100_0111010011_0#32, .mtsprCountb 24#5),
      (.word 0b011111_10111_11000_00100_0111010011_0#32, .mtsprCmpe 23#5),
      (.word 0b011111_10110_11001_00100_0111010011_0#32, .mtsprCmpf 22#5),
      (.word 0b011111_10101_11010_00100_0111010011_0#32, .mtsprCmpg 21#5),
      (.word 0b011111_10100_11011_00100_0111010011_0#32, .mtsprCmph 20#5),
      (.word 0b011111_10011_11100_00100_0111010011_0#32, .mtsprLctrl1 19#5),
      (.word 0b011111_10010_11101_00100_0111010011_0#32, .mtsprLctrl2 18#5),
      (.word 0b011111_10001_11110_00100_0111010011_0#32, .mtsprIctrl 17#5),
      (.word 0b011111_10000_11111_00100_0111010011_0#32, .mtsprBar 16#5),
      (.word 0b011111_01111_10110_10011_0111010011_0#32, .mtsprDpdr 15#5)] = true := by decide

/-- `rfi`, `mtmsr`, `isync`, `sync`, `stwu` (R161, R162). -/
theorem test_decode_system : decodesAll
    [(.word 0b010011_00000_00000_00000_0000110010_0#32, .rfi),
      (.word 0b011111_00011_00000_00000_0010010010_0#32, .mtmsr 3#5),
      (.word 0b010011_00000_00000_00000_0010010110_0#32, .isync),
      (.word 0b011111_00000_00000_00000_1001010110_0#32, .sync),
      (.word 0b100101_00101_00110_0000000000000100#32, .stwu 5#5 4 6#5),
      (.word 0b100101_00001_00000_1000000000000000#32, .stwu 1#5 (-32768) 0#5),
      (.word 0b100101_00001_00010_1111111111111111#32, .stwu 1#5 (-1) 2#5)] = true := by decide

/-- The words of V27 to V31 as the spec prints them. -/
theorem test_decode_printed_words : decodesAll
    [(.word 0x7C7422A6#32, .mfsprEcr 3#5), (.word 0x7CF422A6#32, .mfsprEcr 7#5),
      (.word 0x7C7023A6#32, .mtsprCmpa 3#5), (.word 0x7C9E23A6#32, .mtsprIctrl 4#5),
      (.word 0x7D3E23A6#32, .mtsprIctrl 9#5), (.word 0x7C9823A6#32, .mtsprCmpe 4#5),
      (.word 0x7C9923A6#32, .mtsprCmpf 4#5), (.word 0x7C9A23A6#32, .mtsprCmpg 4#5),
      (.word 0x7C9B23A6#32, .mtsprCmph 4#5), (.word 0x7C9C23A6#32, .mtsprLctrl1 4#5),
      (.word 0x7C9D23A6#32, .mtsprLctrl2 4#5), (.word 0x7C9623A6#32, .mtsprCounta 4#5),
      (.word 0x7C9723A6#32, .mtsprCountb 4#5), (.word 0x7C9523A6#32, .mtsprDer 4#5),
      (.word 0x7C9423A6#32, .mtsprEcr 4#5), (.word 0x7C9F23A6#32, .mtsprBar 4#5),
      (.word 0x7C7622A6#32, .mfsprCounta 3#5), (.word 0x7C7F22A6#32, .mfsprBar 3#5),
      (.word 0x7C7E22A6#32, .mfsprIctrl 3#5), (.word 0x7C7D22A6#32, .mfsprLctrl2 3#5),
      (.word 0x7C7522A6#32, .mfsprDer 3#5), (.word 0x7FF69AA6#32, .mfsprDpdr 31#5),
      (.word 0x7FD69AA6#32, .mfsprDpdr 30#5), (.word 0x7C969AA6#32, .mfsprDpdr 4#5),
      (.word 0x7C769BA6#32, .mtsprDpdr 3#5), (.word 0x7CB69BA6#32, .mtsprDpdr 5#5),
      (.word 0x4C000064#32, .rfi), (.word 0x4C00012C#32, .isync), (.word 0x7C0004AC#32, .sync),
      (.word 0x7C600124#32, .mtmsr 3#5), (.word 0x97FE0004#32, .stwu 31#5 4 30#5),
      (.word 0x94A60004#32, .stwu 5#5 4 6#5)] = true := by decide

/-- What is no instruction: another SPR, the Rc bit, another opcode, no start bit, a mode bit that tells another
length (R141, R150, 00_scope.md section 3). -/
theorem test_decode_rejects :
    [decode (.word 0x7C7A02A6#32), decode (.word 0x7C7422A7#32), decode (.word 0x60000000#32),
      decode (.dp10 0b0110000000#10), decode (.dp10 0b1010000000#10), decode (.dp35 0#35),
      decode (.dp35 0b11000000000000000000000000000000000#35)] =
    [.rejected .unknownWord, .rejected .unknownWord, .rejected .unknownWord, .rejected .noStartBit,
      .rejected .wrongLength, .rejected .noStartBit, .rejected .wrongLength] := by decide

/-- The opcode table's numbering: a CPU word, a short frame, a long frame (log 19). -/
theorem test_decode_table_words :
    [decodeTableWord 32 0x94A60004, decodeTableWord 16 0b1111011111, decodeTableWord 40 0b10100000000000000000011111111111100]
      = [some (.stwu 5#5 4 6#5), some (.cmdBrk true false), some (.data 0x00003FFC#32)] := by decide

/-! ### Well-formedness (R162, R163) -/

/-- A displacement that does not fit 16 bits is refused. -/
theorem test_wellFormed_refuses :
    [(Instr.stwu 1#5 32768 2#5).wellFormed, (Instr.stwu 1#5 (-32769) 2#5).wellFormed] = [false, false] := by decide

/-- The bounds are accepted. -/
theorem test_wellFormed_accepts :
    [(Instr.stwu 1#5 32767 2#5).wellFormed, (Instr.stwu 1#5 (-32768) 2#5).wellFormed] = [true, true] := by decide
/-! ### Small states -/

/-- Outside debug mode at 0x1000, MSR.RI = 1. -/
def outside : State := { State.reset with cpu.pc := 0x1000#32, cpu.msr.ri := true }

/-- Outside debug mode with debug mode enabled. -/
def enabledMode : State := { outside with mode.dme := true }

/-- In debug mode, the CPU waiting for an instruction of the tool. -/
def inDebug : State := { enabledMode with mode.dm := true, mode.frz := true, cpu.wait := .instr }

/-- The word stands at the pc. -/
def atPc (w : Word) (s : State) : State := { s with mem := memWriteWord s.cpu.pc w s.mem }

/-- The port has handed the word to the CPU. -/
def given (w : Word) (s : State) : State := { s with cpu.dpir := some w, cpu.wait := .none }

/-- The CPU waits for data for r4. -/
def reading : State := { inDebug with cpu.wait := .data 4#5 }

/-- A download is in progress and waits for a data word. -/
def downloading : State :=
  { inDebug with cpu.wait := .data 31#5, port.dlip := true, port.dlStore := true }

/-- User mode. -/
def userMode : State := { outside with cpu.msr.pr := true }

/-- The answer is a next state that meets a test. -/
def nextMeets (o : Host.Outcome State Fault Refusal) (p : State → Bool) : Bool :=
  match o with
  | .next t => p t
  | .fault _ => false
  | .refused _ => false

/-! ### One step or one operation on fixed values (95_test_vectors.md) -/

/-- V96, V40: `mtspr CMPA` drops the two low bits. -/
theorem test_mtspr_cmpa :
    nextMeets (exec (.mtsprCmpa 4#5) (writeGpr 4#5 0x00001013#32 outside))
      (fun t => t.dev.cmpa == 0x404#30 && t.cpu.pc == 0x1004#32) = true := by decide

/-- V95: with debug mode enabled and outside it the write is not performed. -/
theorem test_mtspr_cmpa_protected :
    nextMeets (exec (.mtsprCmpa 4#5) (writeGpr 4#5 0x00001010#32 enabledMode))
      (fun t => t.dev.cmpa == 0#30 && t.cpu.pc == 0x1004#32) = true := by decide

/-- V38, V36: the read only bits of ICTRL. -/
theorem test_mtspr_ictrl :
    nextMeets (exec (.mtsprIctrl 9#5) (writeGpr 9#5 0xFFFFFFFF#32 outside))
      (fun t => t.dev.ictrl == 0xFFFFFF0F#32) = true := by decide

theorem test_mfspr_ictrl :
    nextMeets (exec (.mfsprIctrl 3#5)
        { outside with dev.ictrl := 0x80080807#32, port.tecr.iw0 := true, port.tecr.iw3 := true })
      (fun t => readGpr 3#5 t == 0x80080897#32) = true := by decide

/-- V39: `mtspr LCTRL2` with all ones. -/
theorem test_mtspr_lctrl2 :
    nextMeets (exec (.mtsprLctrl2 9#5) (writeGpr 9#5 0xFFFFFFFF#32 outside))
      (fun t => t.dev.lctrl2 == 0xFFFFF803#32) = true := by decide

/-- V41: `mtspr COUNTA`. -/
theorem test_mtspr_counta :
    nextMeets (exec (.mtsprCounta 9#5) (writeGpr 9#5 0x1234FFFD#32 outside))
      (fun t => t.dev.counta == ⟨0x1234#16, 1#2⟩) = true := by decide

/-- V42: `mtspr DER` with all ones. -/
theorem test_mtspr_der :
    nextMeets (exec (.mtsprDer 9#5) (writeGpr 9#5 0xFFFFFFFF#32 inDebug))
      (fun t => t.dev.der == 0x73E7540F#32) = true := by decide

/-- `mtspr` of the registers of 32 bits and of the other address comparators. -/
theorem test_mtspr_wide :
    [nextMeets (exec (.mtsprCmpb 4#5) (writeGpr 4#5 0x1010#32 outside)) (fun t => t.dev.cmpb == 0x404#30),
      nextMeets (exec (.mtsprCmpc 4#5) (writeGpr 4#5 0x1010#32 outside)) (fun t => t.dev.cmpc == 0x404#30),
      nextMeets (exec (.mtsprCmpd 4#5) (writeGpr 4#5 0x1010#32 outside)) (fun t => t.dev.cmpd == 0x404#30),
      nextMeets (exec (.mtsprCmpe 4#5) (writeGpr 4#5 0x1011#32 outside)) (fun t => t.dev.cmpe == 0x1011#32),
      nextMeets (exec (.mtsprCmpf 4#5) (writeGpr 4#5 0x1012#32 outside)) (fun t => t.dev.cmpf == 0x1012#32),
      nextMeets (exec (.mtsprCmpg 4#5) (writeGpr 4#5 0x1013#32 outside)) (fun t => t.dev.cmpg == 0x1013#32),
      nextMeets (exec (.mtsprCmph 4#5) (writeGpr 4#5 0x1014#32 outside)) (fun t => t.dev.cmph == 0x1014#32),
      nextMeets (exec (.mtsprBar 4#5) (writeGpr 4#5 0x1015#32 outside)) (fun t => t.dev.bar == 0x1015#32),
      nextMeets (exec (.mtsprLctrl1 4#5) (writeGpr 4#5 0x8350F3BB#32 outside)) (fun t => t.dev.lctrl1 == 0x8350F3B8#32),
      nextMeets (exec (.mtsprCountb 4#5) (writeGpr 4#5 0x00050003#32 outside))
        (fun t => t.dev.countb == ⟨5#16, 3#2⟩)] = List.replicate 10 true := by decide

/-- `mfspr` of the registers of 32 bits. -/
theorem test_mfspr_wide :
    [nextMeets (exec (.mfsprCmpe 3#5) { outside with dev.cmpe := 1#32 }) (fun t => readGpr 3#5 t == 1#32),
      nextMeets (exec (.mfsprCmpf 3#5) { outside with dev.cmpf := 2#32 }) (fun t => readGpr 3#5 t == 2#32),
      nextMeets (exec (.mfsprCmpg 3#5) { outside with dev.cmpg := 3#32 }) (fun t => readGpr 3#5 t == 3#32),
      nextMeets (exec (.mfsprCmph 3#5) { outside with dev.cmph := 4#32 }) (fun t => readGpr 3#5 t == 4#32),
      nextMeets (exec (.mfsprBar 3#5) { outside with dev.bar := 5#32 }) (fun t => readGpr 3#5 t == 5#32)] =
      List.replicate 5 true := by decide

/-- The bits that are not reserved do not depend on the free value. -/
theorem withReserved_stored (m v f : Word) : withReserved m v f &&& ~~~m = v &&& ~~~m := by
  unfold withReserved; ext i; simp; grind

/-- R396: CMPA. -/
theorem test_mfspr_cmpa :
    ∃ t, exec (.mfsprCmpa 3#5) { outside with dev.cmpa := 0x404#30 } = .next t ∧ readGpr 3#5 t &&& 0xFFFFFFFC#32 = 0x00001010#32 :=
  ⟨_, rfl, withReserved_stored 3#32 0x00001010#32 _⟩

/-- R397: CMPB. -/
theorem test_mfspr_cmpb :
    ∃ t, exec (.mfsprCmpb 3#5) { outside with dev.cmpb := 0x404#30 } = .next t ∧ readGpr 3#5 t &&& 0xFFFFFFFC#32 = 0x00001010#32 :=
  ⟨_, rfl, withReserved_stored 3#32 0x00001010#32 _⟩

/-- R398: CMPC. -/
theorem test_mfspr_cmpc :
    ∃ t, exec (.mfsprCmpc 3#5) { outside with dev.cmpc := 0x404#30 } = .next t ∧ readGpr 3#5 t &&& 0xFFFFFFFC#32 = 0x00001010#32 :=
  ⟨_, rfl, withReserved_stored 3#32 0x00001010#32 _⟩

/-- R399: CMPD. -/
theorem test_mfspr_cmpd :
    ∃ t, exec (.mfsprCmpd 3#5) { outside with dev.cmpd := 0x404#30 } = .next t ∧ readGpr 3#5 t &&& 0xFFFFFFFC#32 = 0x00001010#32 :=
  ⟨_, rfl, withReserved_stored 3#32 0x00001010#32 _⟩

/-- V41: COUNTA after a `sync`. -/
theorem test_mfspr_counta :
    ∃ t, exec (.mfsprCounta 3#5) { outside with dev.counta := ⟨0x1234#16, 1#2⟩, syncedA := true } = .next t ∧ readGpr 3#5 t &&& 0xFFFF0003#32 = 0x12340001#32 :=
  ⟨_, rfl, withReserved_stored 0xFFFC#32 0x12340001#32 _⟩

/-- V79: an inactive COUNTB. -/
theorem test_mfspr_countb :
    ∃ t, exec (.mfsprCountb 3#5) { outside with dev.countb := ⟨0x0005#16, 0#2⟩ } = .next t ∧ readGpr 3#5 t &&& 0xFFFF0003#32 = 0x00050000#32 :=
  ⟨_, rfl, withReserved_stored 0xFFFC#32 0x00050000#32 _⟩

/-- V43: DER after reset. -/
theorem test_mfspr_der :
    ∃ t, exec (.mfsprDer 3#5) { outside with dev.ecr := 4#32 } = .next t ∧ readGpr 3#5 t &&& 0x73E7540F#32 = 0x2002000F#32 :=
  ⟨_, rfl, withReserved_stored 0x8C18ABF0#32 0x2002000F#32 _⟩

/-- V46: LCTRL1. -/
theorem test_mfspr_lctrl1 :
    ∃ t, exec (.mfsprLctrl1 3#5) { outside with dev.lctrl1 := 0xC00C0000#32 } = .next t ∧ readGpr 3#5 t &&& 0xFFFFFFFC#32 = 0xC00C0000#32 :=
  ⟨_, rfl, withReserved_stored 3#32 0xC00C0000#32 _⟩

/-- V37: LCTRL2 with TECR.LW1. -/
theorem test_mfspr_lctrl2 :
    ∃ t, exec (.mfsprLctrl2 3#5) { outside with dev.lctrl2 := 0x82000000#32, port.tecr.lw1 := true } = .next t ∧ readGpr 3#5 t &&& 0xFFFFF80F#32 = 0x82000004#32 :=
  ⟨_, rfl, withReserved_stored 0x7F0#32 0x82000004#32 _⟩

/-- V91 to V93: reading the ECR outside and inside debug mode; the cause bits are read exactly (log 17). -/
theorem test_mfspr_ecr (s : State) (h : s ∈ [outside, enabledMode, inDebug]) :
    ∃ t, exec (.mfsprEcr 3#5) { s with dev.ecr := 4#32 } = .next t ∧ readGpr 3#5 t &&& 0x73E7540F#32 = 4#32 := by
  simp only [List.mem_cons, List.not_mem_nil, or_false] at h
  rcases h with rfl | rfl | rfl <;> exact ⟨_, rfl, withReserved_stored 0x8C18ABF0#32 4#32 _⟩

/-- V91 to V93: the read clears the ECR but with debug mode enabled outside debug mode. -/
theorem test_mfspr_ecr_clears :
    [outside, enabledMode, inDebug].map
      (fun s => nextMeets (exec (.mfsprEcr 3#5) { s with dev.ecr := 4#32 }) (fun t => t.dev.ecr == 0#32)) =
        [true, false, true] := by decide

/-- V94: a write of the ECR is ignored. -/
theorem test_mtspr_ecr :
    nextMeets (exec (.mtsprEcr 4#5) (writeGpr 4#5 0xFFFFFFFF#32 { outside with dev.ecr := 4#32 }))
      (fun t => t.dev.ecr == 4#32) = true := by decide

/-- V88, V89: user mode. -/
theorem test_user_mode :
    [nextMeets (exec (.mfsprIctrl 3#5) { userMode with dev.ecr := 4#32 })
        (fun t => t.dev.ecr == 0x00800004#32 && readGpr 3#5 t == 0#32),
      nextMeets (exec (.mtsprCmpa 4#5) (writeGpr 4#5 0x1010#32 { userMode with dev.ecr := 4#32 }))
        (fun t => t.dev.ecr == 0x00800004#32 && t.dev.cmpa == 0#30)] = [true, true] := by decide

/-- V98: `mfspr r3,DPDR` waits, and the data word completes it. -/
theorem test_mfspr_dpdr :
    nextMeets (exec (.mfsprDpdr 3#5) inDebug) (fun t => t.cpu.wait == .data 3#5 && portReady t) = true := by decide

/-- V98, R444, R460: the data word completes the read; in single-step mode its trace event is recorded then, not when the
read begins to wait. -/
theorem test_data_completes_read :
    nextMeets (exec (.data 0xCAFE0001#32) reading)
        (fun t => readGpr 4#5 t == 0xCAFE0001#32 && !t.port.pInt && t.cpu.wait == .instr) = true ∧
      nextMeets (exec (.data 0xCAFE0001#32) { reading with cpu.msr.se := true })
        (fun t => t.dev.ecr == 0x00020000#32 && t.port.pInt && t.cpu.wait == .instr) = true ∧
      nextMeets (step (given 0x7C969AA6#32 { inDebug with cpu.msr.se := true }))
        (fun t => t.dev.ecr == 0#32 && !t.port.pInt) = true := by decide

/-- P1 row 2: `mtspr DPDR` makes valid data. -/
theorem test_mtspr_dpdr :
    nextMeets (exec (.mtsprDpdr 3#5) (writeGpr 3#5 1#32 inDebug))
      (fun t => t.port.pValid && outFrame (.long 0#35) t == .long 1#35) = true := by decide

/-- P3, 0x100C: `stwu r5,4(r6)`. -/
theorem test_stwu :
    nextMeets (step (atPc 0x94A60004#32 (writeGpr 6#5 0x00002000#32 (writeGpr 5#5 0xDEADBEEF#32 outside))))
      (fun t => readGpr 6#5 t == 0x2004#32 && memReadWord 0x2004#32 t.mem == some 0xDEADBEEF#32 &&
        memRead 0x2004 t.mem == some 0xDE#8 && t.cpu.pc == 0x1004#32) = true := by decide

/-- R103: the bytes of a word at an address with low bits 01 travel on lanes 1, 2, 3 and 0. -/
theorem test_unaligned_lanes :
    [busWord 0x2000#32 0x11223344#32, busWord 0x2001#32 0x11223344#32, busWord 0x2002#32 0x11223344#32,
      busWord 0x2003#32 0x11223344#32] = [0x11223344#32, 0x44112233#32, 0x33441122#32, 0x22334411#32] := by decide

/-- R417 with rS = rA and a negative displacement: the old value is stored. -/
theorem test_stwu_same_register :
    nextMeets (exec (.stwu 6#5 (-4) 6#5) (writeGpr 6#5 0x00002000#32 outside))
      (fun t => readGpr 6#5 t == 0x1FFC#32 && memReadWord 0x1FFC#32 t.mem == some 0x00002000#32) = true := by
  decide

/-- `mtmsr` writes the named bits; in debug mode EE is refused (U10). -/
theorem test_mtmsr :
    [nextMeets (exec (.mtmsr 3#5) (writeGpr 3#5 0x00009002#32 outside))
        (fun t => t.cpu.msr == ⟨true, false, true, false, false, true, 0#32⟩),
      nextMeets (exec (.mtmsr 3#5) (writeGpr 3#5 0x00008000#32 inDebug)) (fun _ => true)] = [true, false] := by
  decide

/-- V108 to V111: freeze and `rfi`. -/
theorem test_rfi :
    [nextMeets (exec .rfi { outside with dev.ecr := 4#32, mode.frz := true, cpu.srr0 := 0x1013#32 })
        (fun t => t.mode.frz && t.cpu.pc == 0x1010#32),
      nextMeets (exec .rfi { outside with mode.frz := true }) (fun t => !t.mode.frz),
      nextMeets (exec .rfi { inDebug with dev.ecr := 4#32, cpu.srr0 := 0x1010#32 })
        (fun t => t.mode.dm && t.mode.frz && t.cpu.srr0 == 0x1010#32),
      nextMeets (exec .rfi inDebug) (fun t => !t.mode.dm && !t.mode.frz)] = [true, true, true, true] := by decide

/-- `isync` is reported as an indirect branch, `sync` as sequential (Table 21-1). -/
theorem test_isync_sync :
    [nextMeets (exec .isync outside) (fun t => t.trace.events == [.typeCode 0b101#3] && t.trace.mark.ptc),
      nextMeets (exec .sync outside) (fun t => t.trace.events == [.typeCode 0b001#3] && t.syncedA)] =
      [true, true] := by decide

/-- V99 to V104: where an event goes. -/
theorem test_events :
    [(raise .alignment 0x1000#32 enabledMode).dev.ecr == 0x01000000#32 && !(raise .alignment 0x1000#32 enabledMode).mode.dm,
      (raise .alignment 0x1000#32 { enabledMode with dev.der := 0x2102000F#32 }).mode == ⟨true, true, true, false⟩,
      (raise .alignment 0x1000#32 { outside with dev.der := 0x2102000F#32 }).mode == ⟨false, false, true, false⟩,
      (raise .instrBreak 0x1010#32 outside).mode == ⟨false, false, true, false⟩ &&
        (raise .instrBreak 0x1010#32 outside).cpu.srr0 == 0x1010#32,
      (raise .instrBreak 0x1010#32 enabledMode).mode == ⟨true, true, true, false⟩ &&
        (raise .instrBreak 0x1010#32 enabledMode).cpu.wait == .instr,
      (raise .instrBreak 0x1010#32 { enabledMode with dev.der := 0x2002000B#32 }).mode == ⟨true, false, false, false⟩] =
      List.replicate 6 true := by decide

/-- V44: the ECR bit of each event, in the order of 60_exceptions.md R441. -/
theorem test_event_masks :
    [Event.nmi, .checkStop, .machineCheck, .extInt, .alignment, .program, .fpUnavail, .decrementer, .sysCall, .trace,
      .fpAssist, .softEmul, .itlbError, .dtlbError, .loadStoreBreak, .instrBreak, .extBreak, .devPortInt].map eventMask =
    [0x40000000#32, 0x20000000#32, 0x10000000#32, 0x02000000#32, 0x01000000#32, 0x00800000#32, 0x00400000#32,
      0x00200000#32, 0x00040000#32, 0x00020000#32, 0x00010000#32, 0x00004000#32, 0x00001000#32, 0x00000400#32,
      0x00000008#32, 0x00000004#32, 0x00000002#32, 0x00000001#32] := by decide

/-- V107: a program exception in debug mode. -/
theorem test_event_in_debug_mode :
    (raise .program 0x1000#32 inDebug).dev.ecr == 0x00800000#32 && (raise .program 0x1000#32 inDebug).port.pInt &&
      (raise .program 0x1000#32 inDebug).cpu.pc == 0x1000#32 &&
      outStatus (raise .program 0x1000#32 inDebug) == .cpuInterrupt := by decide

/-- What a machine check leaves: ECR, freeze, debug mode, check stop. -/
def machineCheckOf (me dme : Bool) (der : Word) : Word × Bool × Bool × Bool :=
  let t := raiseMachineCheck false 0x1000#32 { outside with cpu.msr.me := me, mode.dme := dme, dev.der := der }
  (t.dev.ecr, t.mode.frz, t.mode.dm, t.cpu.checkStop)

/-- V50 to V55 (Table 21-9). -/
theorem test_machine_check :
    [machineCheckOf false false 0x2002000F#32, machineCheckOf true false 0x2002000F#32,
      machineCheckOf false true 0x0002000F#32, machineCheckOf false true 0x2002000F#32,
      machineCheckOf true true 0x2002000F#32, machineCheckOf true true 0x3002000F#32] =
    [(0x20000000#32, true, false, true), (0x10000000#32, false, false, false), (0x20000000#32, false, false, true),
      (0x20000000#32, true, true, false), (0x10000000#32, false, false, false),
      (0x10000000#32, true, true, false)] := by decide

/-- R460: in debug mode it is recorded at once. -/
theorem test_machine_check_in_debug_mode :
    [false, true].map (fun me => nextMeets (step { inDebug with cpu.msr.me := me, ext.inputs := [.machineCheck] })
      (fun t => t.dev.ecr == (if me then 0x10000000#32 else 0x20000000#32) && t.port.pInt && t.mode.dm &&
        !t.cpu.checkStop)) = [true, true] := by decide

/-- V105, V106: `CMD_BRK` requests with MSR.RI = 0. -/
theorem test_break_requests :
    [pendingEvents { enabledMode with cpu.msr.ri := false, port.tecr.mbrk := true },
      pendingEvents { enabledMode with port.tecr.mbrk := true },
      pendingEvents { enabledMode with cpu.msr.ri := false, port.tecr.nmbrk := true }] =
    [[], [.extBreak], [.devPortInt]] := by decide

/-- V90: DME, DM, ECR, FRZ, CLKMODE after a reset. -/
def resetOf (p : ResetPins) : Bool × Bool × Word × Bool × Bool :=
  let t := resetMachine .hard { outside with ext.pins := p }
  (t.mode.dme, t.mode.dm, t.dev.ecr, t.mode.frz, t.mode.clkMode)

theorem test_reset :
    [resetOf ⟨false, false, false⟩, resetOf ⟨true, false, false⟩, resetOf ⟨true, true, false⟩, resetOf ⟨true, true, true⟩,
      resetOf ⟨false, true, true⟩] =
    [(false, false, 0#32, false, false), (true, false, 0#32, false, false), (true, true, 1#32, true, false),
      (true, true, 1#32, true, true), (false, false, 0#32, false, true)] := by decide

/-! ### The development port -/

/-- V17 to V26: output frames. -/
theorem test_output_frames :
    [outFrame (.long 0#35) inDebug, outFrame (.long 0#35) outside, outFrame (.long 0#35) downloading,
      outFrame (.short 0#10) outside, outFrame (.short 0#10) inDebug, outFrame (.short 0#10) downloading,
      outFrame (.long 0#35) { inDebug with port.pValid := true, port.shift := 1#35 },
      outFrame (.long 0#35) { inDebug with port.pSeq := true }, outFrame (.short 0#10) { outside with port.pSeq := true },
      outFrame (.long 0#35) { inDebug with port.pInt := true }] =
    [.long 0b01111111111111111111111111111111111#35, .long 0b01101111111111111111111111111111111#35,
      .long 0b01110111111111111111111111111111111#35, .short 0b0110111111#10, .short 0b0111111111#10,
      .short 0b0111011111#10, .long 0b00000000000000000000000000000000001#35,
      .long 0b00111111111111111111111111111111111#35, .short 0b0010111111#10,
      .long 0b01011111111111111111111111111111111#35] := by decide

/-- R350: a delivered word waits for the CPU. -/
theorem test_instr :
    nextMeets (exec (.instr 0x7C0004AC#32) inDebug)
      (fun t => t.cpu.dpir == some 0x7C0004AC#32 && !portReady t) = true := by decide

/-- V116: INSTR while the CPU reads. -/
theorem test_instr_while_reading :
    nextMeets (exec (.instr 0x7C0004AC#32) reading)
      (fun t => t.port.pSeq && t.port.pInt && t.cpu.wait == .instr && t.cpu.dpir == none) = true := by decide

/-- V98, V115: DATA completes a read, and is a sequencing error while the CPU fetches. -/
theorem test_data :
    [nextMeets (exec (.data 0xCAFE0001#32) reading)
        (fun t => readGpr 4#5 t == 0xCAFE0001#32 && t.cpu.wait == .instr && !t.port.pSeq),
      nextMeets (exec (.data 0x12345678#32) inDebug) (fun t => t.port.pSeq && t.cpu.wait == .instr)] =
      [true, true] := by decide

/-- V114 and P5 (c): a debug transmission outside debug mode, then an ignored TECR. -/
theorem test_outside_debug_mode :
    [nextMeets (exec (.instr 0x4C000064#32) outside) (fun t => t.port.pSeq && t.cpu.dpir == none),
      nextMeets (exec (.tecr 0b1000000#7) { outside with port.pSeq := true })
        (fun t => !t.port.tecr.iw0 && !t.port.pSeq)] = [true, true] := by decide

/-- TECR completes with its effect in the order of the parameter (R340). -/
theorem test_tecr :
    exec (.tecr 0b1000001#7) outside =
      .next (tecrEffect Config.tecrLayout 0b1000001#7 (exchange (.short 0b1101000001#10) outside)) := rfl

/-- The effect of TECR with the order of the table of R143. -/
def tecrDefault (d : BitVec 7) (s : State) : State := tecrEffect TecrLayout.default d s

/-- V1, V2, V120: TECR loads and reports a VSYNC change once. -/
theorem test_tecr_effect :
    (tecrDefault 0b1000001#7 outside).port.tecr = ⟨true, false, false, false, false, false, true, false, false⟩ ∧
      (tecrDefault 0b0000110#7 outside).port.tecr = ⟨false, false, false, false, true, true, false, false, false⟩ ∧
      (tecrDefault 0b1000001#7 outside).trace.events = [.typeCode 0b011#3] ∧
      (tecrDefault 0b1000001#7 outside).trace.mark = ⟨true, false, true⟩ ∧
      (tecrDefault 0b0000001#7 { outside with port.tecr.vsync := true }).trace.events = [] := by decide

/-- V73: a VSYNC change in debug mode is reported at the `rfi`. -/
theorem test_tecr_in_debug_mode :
    ((tecrDefault 0b0000001#7 inDebug).trace.vsyncChanged && (tecrDefault 0b0000001#7 inDebug).trace.events == []) &&
      nextMeets (exec .rfi { inDebug with trace.vsyncChanged := true })
        (fun t => t.trace.events == [.typeCode 0b011#3] && !t.trace.vsyncChanged) = true := by decide

/-- V117, V11: CMD_NOP and a reserved command. -/
theorem test_nop :
    [nextMeets (exec (.cmdNop 0#2) reading) (fun t => t.cpu == reading.cpu && portReady t),
      nextMeets (exec (.cmdReserved11110 3#2) reading) (fun t => t.cpu == reading.cpu && t.port.tecr == reading.port.tecr)] =
      [true, true] := by decide

/-- V8, V9: CMD_BRK. -/
theorem test_cmd_brk :
    [nextMeets (exec (.cmdBrk true false) outside) (fun t => t.port.tecr.nmbrk && !t.port.tecr.mbrk),
      nextMeets (exec (.cmdBrk false true) { outside with port.tecr.nmbrk := true })
        (fun t => !t.port.tecr.nmbrk && t.port.tecr.mbrk)] = [true, true] := by decide

/-- V4, V5: the reset commands. -/
theorem test_reset_commands :
    [nextMeets (exec (.cmdHreset 0#2) { inDebug with dev.ictrl := 8#32 }) (fun t => t.dev.ictrl == 0#32 && !t.mode.dm),
      nextMeets (exec (.cmdSreset 0#2) { inDebug with dev.cmpe := 8#32 })
        (fun t => t.dev.cmpe == 8#32 && t.dev.der == 0x2002000F#32)] = [true, true] := by decide

/-- P2 rows 3 and 7: the download commands. -/
theorem test_download_commands :
    [nextMeets (exec .cmdStartDownload inDebug) (fun t => t.port.dlip && t.cpu.dpir == some 0x7FF69AA6#32),
      nextMeets (exec .cmdEndDownload downloading) (fun t => t.port.dlEnd && t.port.dlip),
      nextMeets (exec .cmdStartDownload outside) (fun t => !t.port.dlip),
      nextMeets (exec .cmdEndDownload inDebug) (fun t => !t.port.dlEnd)] = [true, true, true, true] := by decide

/-- P2 rows 4 and 8: the data word of a download and the one after its end. -/
theorem test_download_data :
    [nextMeets (exec (.data 0xAAAA0001#32) downloading)
        (fun t => readGpr 31#5 t == 0xAAAA0001#32 && t.cpu.dpir == some 0x97FE0004#32),
      nextMeets (exec (.data 0#32) { downloading with port.dlEnd := true })
        (fun t => !t.port.dlip && t.cpu.wait == .instr)] = [true, true] := by decide

/-! ### Watchpoints and breakpoints -/

/-- The instruction watchpoints IWP0 and IWP1 of a fetch at a byte address. -/
def iwpAt (ictrl a b : Word) (pc : Word) : Bool × Bool :=
  let f := flightOfFetch (pc.extractLsb' 2 30)
    { outside.dev with ictrl := ictrl, cmpa := a.extractLsb' 2 30, cmpb := b.extractLsb' 2 30 }
  (f.iwp0, f.iwp1)

/-- V47 to V49, V56 to V58: the compare types. -/
theorem test_instruction_compare :
    [(iwpAt 0x80080007#32 0x1010#32 0#32 0x1010#32).1, (iwpAt 0x80080007#32 0x1010#32 0#32 0x1014#32).1,
      (iwpAt 0xA0080007#32 0x1010#32 0#32 0x100C#32).1, (iwpAt 0xA0080007#32 0x1010#32 0#32 0x1010#32).1,
      (iwpAt 0xC0080007#32 0x1010#32 0#32 0x1010#32).1, (iwpAt 0xC0080007#32 0x1010#32 0#32 0x1014#32).1,
      (iwpAt 0xE0080007#32 0x1010#32 0#32 0x1010#32).1, (iwpAt 0xE0080007#32 0x1010#32 0#32 0x0000#32).1,
      (iwpAt 0x00080007#32 0x1010#32 0#32 0x1010#32).1] =
    [true, false, true, false, false, true, false, true, false] := by decide

/-- V61, V62: in range and out of range. -/
theorem test_instruction_ranges :
    [0x1000#32, 0x1004#32, 0x100C#32, 0x1010#32].map (fun p => (iwpAt 0xD40C0807#32 0x1000#32 0x1010#32 p).1) =
        [false, true, true, false] ∧
      [0x0FFC#32, 0x1000#32, 0x1010#32, 0x1014#32].map (fun p => (iwpAt 0xB8030007#32 0x1000#32 0x1010#32 p).2) =
        [true, false, false, true] := by decide

/-- LWP0 of a cycle that carries `data`. -/
def lwp0At (e f g h lctrl1 lctrl2 : Word) (write : Bool) (a : Word) (size : Nat) (data : Word) : Bool :=
  lwp0Of (watchCycles
    { outside.dev with cmpe := e, cmpf := f, cmpg := g, cmph := h, lctrl1 := lctrl1, lctrl2 := lctrl2 }
    Flight.idle 0 [⟨a, write, size, data⟩])

/-- X1: the byte example. -/
theorem test_bus_example_1 :
    [(0x3#32, 1, 0x00000009#32), (0x0#32, 4, 0x11223309#32), (0x2#32, 2, 0x00003309#32), (0x3#32, 1, 0x00000008#32),
      (0x3#32, 1, 0x0000000B#32), (0x3#32, 1, 0x00000007#32), (0x3#32, 1, 0x0000000C#32), (0x3#32, 1, 0x00000080#32),
      (0x4#32, 4, 0x11223309#32), (0x2#32, 1, 0x00000900#32), (0x0#32, 4, 0x09090907#32)].map
      (fun c => lwp0At 3#32 0#32 7#32 0xC#32 0x8350F3B8#32 0x83400000#32 false c.1 c.2.1 c.2.2) =
    [true, true, true, true, true, false, false, false, false, false, false] := by decide

/-- X2: the half-word example, the missed half-word at 2 among them. -/
theorem test_bus_example_2 :
    [(0x4#32, 2, 0x75300000#32), (0xA#32, 2, 0x00007530#32), (0x4#32, 2, 0x4E210000#32), (0x4#32, 2, 0x9C3F0000#32),
      (0x4#32, 2, 0x4E200000#32), (0x4#32, 2, 0x9C400000#32), (0x0#32, 2, 0x75300000#32), (0xC#32, 2, 0x75300000#32),
      (0x8#32, 4, 0x00007530#32), (0x4#32, 4, 0x75304E20#32), (0x4#32, 4, 0x4E209C40#32), (0x5#32, 1, 0x00750000#32),
      (0x0#32, 4, 0x00007530#32)].map
      (fun c => lwp0At 0#32 0xC#32 0x4E204E20#32 0x9C409C40#32 0xD750A000#32 0x8B400000#32 false c.1 c.2.1 c.2.2) =
    [true, true, true, true, false, false, false, false, true, true, false, false, false] := by decide

/-- X3: half-word mode, then word mode with its false detections. -/
theorem test_bus_example_3 :
    [(0x2#32, 2, 0x00007530#32), (0xC#32, 2, 0x75300000#32), (0x0#32, 2, 0x75300000#32), (0xE#32, 2, 0x00007530#32),
      (0x4#32, 4, 0x75300000#32), (0x8#32, 4, 0x00007530#32), (0x0#32, 4, 0x00007530#32), (0xC#32, 4, 0x75300000#32)].map
      (fun c => lwp0At 1#32 0xE#32 0x4E204E20#32 0x9C409C40#32 0xD750A000#32 0x8B400000#32 false c.1 c.2.1 c.2.2) =
      [true, true, false, false, true, true, false, false] ∧
    [(0x2#32, 2, 0x00007530#32), (0x4#32, 4, 0x75307530#32), (0x4#32, 4, 0x9C400000#32), (0x4#32, 4, 0x4E20FFFF#32),
      (0x4#32, 4, 0x4E200000#32)].map
      (fun c => lwp0At 1#32 0xE#32 0x4E204E20#32 0x9C409C40#32 0xD7505000#32 0x8B400000#32 false c.1 c.2.1 c.2.2) =
      [false, true, true, true, false] := by decide

/-- V63, V65, V66: signed and unsigned data. -/
theorem test_signed_compare :
    [lwp0At 0#32 0#32 0x01010101#32 0#32 0x0280F000#32 0x80400000#32 false 0#32 1 0x80000000#32,
      lwp0At 0#32 0#32 0x01010101#32 0#32 0x0280F800#32 0x80400000#32 false 0#32 1 0x80000000#32,
      lwp0At 0#32 0#32 0x00010001#32 0#32 0x0280A000#32 0x80400000#32 false 2#32 2 0x00008000#32,
      lwp0At 0#32 0#32 0x00010001#32 0#32 0x0280A800#32 0x80400000#32 false 2#32 2 0x00008000#32] =
    [false, true, false, true] := by decide

/-- V67, V68: the direction, and a watchpoint without any condition. -/
theorem test_direction :
    [lwp0At 0x3004#32 0#32 0#32 0#32 0xC00C0000#32 0x82000000#32 true 0x3008#32 4 0#32,
      lwp0At 0x3004#32 0#32 0#32 0#32 0xC00C0000#32 0x82000000#32 false 0x3008#32 4 0#32,
      lwp0At 0x3004#32 0#32 0#32 0#32 0xC00C0000#32 0x82000000#32 true 0x3004#32 4 0#32,
      lwp0At 0#32 0#32 0#32 0#32 0#32 0x80000000#32 true 0x3004#32 4 0#32] = [true, false, false, true] := by decide

/-- An `isync` at 0x1000 watched by comparator A. -/
def watched1000 (ictrl lctrl2 : Word) (ri : Bool) : State :=
  atPc 0x4C00012C#32
    { outside with cpu.msr.ri := ri, dev.cmpa := 0x400#30, dev.ictrl := ictrl, dev.lctrl2 := lctrl2 }

/-- V47, V59, V82, V83: the watchpoint alone, the breakpoint, the masked and the non-masked mode. -/
theorem test_instruction_breakpoint :
    [nextMeets (step (watched1000 0x80080007#32 0#32 true)) (fun t => t.trace.pins.iwp0 && t.cpu.pc == 0x1004#32),
      nextMeets (step (watched1000 0x80080807#32 0#32 true))
        (fun t => t.dev.ecr == 4#32 && t.cpu.srr0 == 0x1000#32 && t.mode.frz && !t.mode.dm),
      nextMeets (step (watched1000 0x80080807#32 0#32 false))
        (fun t => t.trace.pins.iwp0 && t.cpu.pc == 0x1004#32 && t.dev.ecr == 0#32),
      nextMeets (step (watched1000 0x80080807#32 0x800#32 false)) (fun t => t.dev.ecr == 4#32)] =
      [true, true, true, true] := by decide

/-- V84, V85: ignore first match, and not where the match is masked. -/
theorem test_ignore_first_match :
    [nextMeets (step (watched1000 0x8008080F#32 0#32 true))
        (fun t => t.dev.ictrl == 0x80080807#32 && t.cpu.pc == 0x1004#32 && t.dev.ecr == 0#32),
      nextMeets (step (watched1000 0x8008080F#32 0#32 false))
        (fun t => t.dev.ictrl == 0x8008080F#32 && t.cpu.pc == 0x1004#32)] = [true, true] := by decide

/-- V30, V74, V77: the counter of an instruction watchpoint. -/
theorem test_instruction_counter :
    [nextMeets (step { watched1000 0x80080007#32 0#32 true with dev.counta := ⟨3#16, 1#2⟩ })
        (fun t => t.dev.counta == ⟨2#16, 1#2⟩ && t.cpu.pc == 0x1004#32),
      nextMeets (step { watched1000 0x80080007#32 0#32 true with dev.counta := ⟨1#16, 1#2⟩ })
        (fun t => t.dev.counta == ⟨1#16, 1#2⟩ && t.dev.ecr == 4#32 && t.cpu.srr0 == 0x1000#32),
      nextMeets (step { watched1000 0x80080007#32 0#32 false with dev.counta := ⟨3#16, 1#2⟩ })
        (fun t => t.dev.counta == ⟨3#16, 1#2⟩ && t.trace.pins.iwp0)] = [true, true, true] := by decide

/-- R244, R291: where a direct breakpoint stops the instruction, a counter at 0 does not change. -/
theorem test_counter_unchanged_by_breakpoint :
    nextMeets (step { watched1000 0x80080807#32 0#32 true with dev.counta := ⟨0#16, 1#2⟩ })
      (fun t => t.dev.counta == ⟨0#16, 1#2⟩ && t.dev.ecr == 4#32) = true := by decide

/-- R268, R553: whatever the open matches are, a partly masked unit does not match on a smaller aligned cycle. -/
theorem test_partly_masked_smaller_cycle :
    [dataMatch ⟨0b100#3, 0b01#2, false, 0b1000#4, 0#32⟩ ⟨0#32, false, 1, 0#32⟩ (fun _ => true) 0,
      dataMatch ⟨0b100#3, 0b10#2, false, 0b0100#4, 0#32⟩ ⟨1#32, false, 1, 0#32⟩ (fun _ => true) 0,
      dataMatch ⟨0b100#3, 0b10#2, false, 0b1000#4, 0#32⟩ ⟨2#32, false, 2, 0#32⟩ (fun _ => true) 0,
      dataMatch ⟨0b100#3, 0b01#2, false, 0b1000#4, 0#32⟩ ⟨0#32, false, 4, 0#32⟩ (fun _ => true) 0] =
    [false, false, false, true] := by decide

/-- R444: in single-step mode the trace event follows the instruction. -/
theorem test_single_step :
    nextMeets (step { watched1000 0x7#32 0#32 true with cpu.msr.se := true })
      (fun t => t.dev.ecr == 0x00020000#32 && t.mode.frz && !t.mode.dm) = true := by decide

/-- P4: a store to 0x3008 watched by comparator E. -/
def watchedStore (lctrl2 : Word) (c : Counter) : State :=
  atPc 0x94A60004#32 (writeGpr 6#5 0x3004#32 (writeGpr 5#5 0x55AA55AA#32
    { enabledMode with dev.cmpe := 0x3004#32, dev.lctrl1 := 0xC00C0000#32, dev.lctrl2 := lctrl2, dev.counta := c }))

/-- V72: the store is performed, then the breakpoint is taken. -/
theorem test_load_store_breakpoint :
    nextMeets (step (watchedStore 0x82000002#32 ⟨0#16, 0#2⟩))
      (fun t => memReadWord 0x3008#32 t.mem == some 0x55AA55AA#32 && t.dev.bar == 0x3008#32 && t.dev.ecr == 8#32 &&
        t.cpu.srr0 == 0x1004#32 && t.mode.dm) = true := by decide

/-- V31: the counter of a load/store watchpoint. -/
theorem test_load_store_counter :
    [nextMeets (step (watchedStore 0x82000000#32 ⟨2#16, 2#2⟩))
        (fun t => t.dev.counta == ⟨1#16, 2#2⟩ && t.dev.ecr == 0#32 && t.trace.pins.lwp0),
      nextMeets (step (watchedStore 0x82000000#32 ⟨1#16, 2#2⟩))
        (fun t => t.dev.counta == ⟨0#16, 2#2⟩ && t.dev.bar == 0x3008#32 && t.dev.ecr == 8#32 &&
          memReadWord 0x3008#32 t.mem == some 0x55AA55AA#32)] = [true, true] := by decide

/-- R441, R455: an asynchronous machine check before an instruction that has a breakpoint set, with ME = 0 and with
ME = 1; the breakpoint does not drop it. -/
theorem test_asynchronous_machine_check :
    [nextMeets (step { watched1000 0x80080807#32 0#32 true with ext.machineCheck := true, dev.der := 0#32 })
        (fun t => t.dev.ecr == 0x20000000#32 && t.cpu.checkStop && !t.ext.machineCheck && t.cpu.pc == 0x1000#32),
      nextMeets (step { watched1000 0x80080807#32 0#32 true with ext.machineCheck := true, cpu.msr.me := true })
        (fun t => t.dev.ecr == 0x10000000#32 && !t.cpu.checkStop && !t.ext.machineCheck && t.cpu.srr0 == 0x1000#32)] =
      [true, true] := by decide

/-! ### The registers exceptions save into -/

/-- The moves of SRR0, SRR1, DAR and DSISR (R158, R159, GK3). -/
theorem test_decode_save :
    [0b011111_00011_11010_00000_0101010011_0#32, 0b011111_00100_11011_00000_0101010011_0#32,
        0b011111_00101_10011_00000_0101010011_0#32, 0b011111_00110_10010_00000_0101010011_0#32,
        0b011111_00100_11010_00000_0111010011_0#32, 0b011111_00101_11011_00000_0111010011_0#32,
        0b011111_00110_10011_00000_0111010011_0#32, 0b011111_00111_10010_00000_0111010011_0#32].map decodeCpu =
      [some (.mfsprSave 3#5 .srr0), some (.mfsprSave 4#5 .srr1), some (.mfsprSave 5#5 .dar), some (.mfsprSave 6#5 .dsisr),
        some (.mtsprSave .srr0 4#5), some (.mtsprSave .srr1 5#5), some (.mtsprSave .dar 6#5),
        some (.mtsprSave .dsisr 7#5)] := by decide

/-- A word with the record bit, another SPR number or another extended opcode is no such move. -/
theorem test_decode_save_refused :
    [0x7C9A03A7#32, 0x7C9C03A6#32, 0x7C9A03A4#32].map decodeCpu = [none, none, none] := by decide

/-- R470, R530: in debug mode the tool puts a start address into SRR0 by `mtspr`, and `rfi` goes there. -/
theorem test_tool_sets_srr0 :
    nextMeets (step (given 0x7C9A03A6#32 (writeGpr 4#5 0x3004#32 inDebug)))
      (fun t => t.cpu.srr0 == 0x3004#32 && t.cpu.srr1 == 0#32 && t.dev.ecr == 0#32 &&
        nextMeets (exec .rfi t) (fun u => u.cpu.pc == 0x3004#32 && !u.mode.dm)) = true := by decide

/-- A handler reads DAR; in user mode it is the program exception. -/
theorem test_mfspr_dar :
    [nextMeets (step (atPc 0x7C7302A6#32 { enabledMode with cpu.dar := 0x3008#32 }))
        (fun t => readGpr 3#5 t == 0x3008#32 && t.cpu.pc == 0x1004#32),
      nextMeets (step (atPc 0x7C7302A6#32 { userMode with cpu.dar := 0x3008#32 }))
        (fun t => readGpr 3#5 t == 0#32 && t.dev.ecr == 0x00800000#32)] = [true, true] := by decide

/-- R460: in debug mode and user mode the move is the program exception, and its destination is free. -/
theorem test_move_excepts_in_debug_mode :
    ∃ t, step (given 0x7C7302A6#32 { inDebug with cpu.msr.pr := true, draws := 7 }) = .next t ∧
      t.dev.ecr = 0x00800000#32 ∧ t.port.pInt = true ∧ readGpr 3#5 t = Config.freeWord 7 :=
  ⟨_, rfl, by decide, by decide, rfl⟩

/-! ### Program trace -/

/-- V80, V122 to V124: the decoder of the VF pins. -/
theorem test_vf_decoder :
    vfDecodeAll .type [0b110#3, 0b111#3, 0b000#3, 0b001#3] =
        [.instrType 0b110#3, .instrType 0b111#3, .flushed 0, .instrType 0b001#3] ∧
      vfDecodeAll .type [0b101#3, 0b011#3, 0b001#3] = [.instrType 0b101#3, .flushed 3, .instrType 0b001#3] ∧
      vfDecodeAll .type [0b100#3, 0b110#3] = [.instrType 0b100#3] ∧
      [isVsyncReport 0b001#3 0b011#3, isVsyncReport 0b101#3 0b011#3] = [true, false] := by decide

/-- V125 to V129: which fetches are visible. -/
theorem test_visible :
    [fetchVisible 0b11#2 false FetchMark.indirect, fetchVisible 0b11#2 true FetchMark.indirect,
      fetchVisible 0b01#2 false ⟨false, true, false⟩, fetchVisible 0b01#2 false FetchMark.plain,
      fetchVisible 0b10#2 false ⟨false, true, false⟩, fetchVisible 0b10#2 false FetchMark.indirect,
      fetchVisible 0b00#2 false FetchMark.plain] = [false, true, true, false, false, true, true] := by decide

/-- R155: the pins VFLS and what the external hardware reads from them. -/
theorem test_vfls :
    [vflsPins 0 outside, vflsPins 1 outside, vflsPins 2 outside, vflsPins 1 inDebug] = [0b00#2, 0b01#2, 0b10#2, 0b11#2] ∧
      [0b00#2, 0b01#2, 0b10#2, 0b11#2].map vflsDecode = [.flushed 0, .flushed 1, .flushed 2, .freeze] := by decide

/-- VSYNC asserted, no show cycles (ISCTL = 11), a marked address still to be shown, a `sync` at the pc. -/
def syncPending : State :=
  atPc 0x7C0004AC#32
    { outside with port.tecr.vsync := true, trace.mark := FetchMark.indirect, trace.isct := 0b111#3, dev.ictrl := 7#32 }

/-- R198: the negation of VSYNC is reported after the marked address has been shown. -/
theorem test_vsync_report_is_delayed :
    (tecrDefault 0#7 syncPending).trace.events = [] ∧
      nextMeets (step (tecrDefault 0#7 syncPending))
        (fun t => t.trace.events == [.showCycle 0x400#30 true, .typeCode 0b001#3, .typeCode 0b011#3] &&
          t.trace.mark == ⟨true, false, true⟩ && t.trace.vsyncHeld == 0) = true := by decide

/-- R196, R198: a negation and an assertion that both wait are reported one after the other, each with a marked fetch. -/
theorem test_vsync_reports_each_change :
    (tecrDefault 0b0000001#7 (tecrDefault 0#7 syncPending)).trace.vsyncHeld = 2 ∧
      nextMeets (step (tecrDefault 0b0000001#7 (tecrDefault 0#7 syncPending)))
        (fun t => t.trace.vsyncHeld == 1 && t.trace.events.getLast? == some vsyncReport &&
          nextMeets (step { t with mem := memWriteWord t.cpu.pc 0x7C0004AC#32 t.mem })
            (fun u => u.trace.vsyncHeld == 0 && u.trace.events ==
              t.trace.events ++ [.showCycle 0x401#30 true, .typeCode 0b001#3, vsyncReport])) = true := by decide

/-- R197: an assertion that comes while the fetch marked by the report of a negation is still to be made waits for it. -/
theorem test_vsync_reports_share_no_fetch :
    nextMeets (step (tecrDefault 0b0000001#7 (tecrDefault 0#7 { syncPending with trace.mark := FetchMark.plain })))
      (fun t => t.trace.events == [vsyncReport, .showCycle 0x400#30 true, .typeCode 0b001#3, vsyncReport] &&
        t.trace.vsyncHeld == 0) = true := by decide

/-- R195, R49: debug mode entry leaves a waiting report to wait; without a change in debug mode the exit reports 101. -/
theorem test_held_report_waits_in_debug_mode :
    (enterDebug none 0#32 (tecrDefault 0#7 syncPending)).trace.vsyncHeld = 1 ∧
      (enterDebug none 0#32 (tecrDefault 0#7 syncPending)).trace.vsyncChanged = false ∧
      (leaveDebug (enterDebug none 0#32 (tecrDefault 0#7 syncPending))).trace.events.getLast? =
        some (.typeCode 0b101#3) := by decide

/-- R201, R202: the buffers of a back trace and of a window trace, and their start addresses. -/
theorem test_trace_buffers :
    backTrace [.showCycle 5#30 true, .typeCode 1#3, .showCycle 6#30 false, vsyncReport, .showCycle 7#30 true, vsyncReport,
        .typeCode 1#3] =
        [.showCycle 5#30 true, .typeCode 1#3, vsyncReport, .showCycle 7#30 true, vsyncReport] ∧
      windowTrace [.typeCode 1#3, vsyncReport, .showCycle 7#30 true, .typeCode 1#3, vsyncReport, .typeCode 1#3] =
        [vsyncReport, .showCycle 7#30 true, .typeCode 1#3, vsyncReport] ∧
      backTraceStart [.showCycle 5#30 true, vsyncReport] = some 5#30 ∧
      windowTraceStart [.typeCode 1#3, vsyncReport, .showCycle 0x40#30 true, .typeCode 1#3, vsyncReport] (fun _ => 0#32) =
        some 0x100#32 := by decide

/-- X4: the start of a trace window. -/
theorem test_trace_start :
    [traceStart 0b011#3 0b001#3 0x100#32 0#32 (fun _ => 0#32), traceStart 0b011#3 0b110#3 0x108#32 0#32 (fun _ => 0xFC#32),
      traceStart 0b011#3 0b101#3 0x100#32 0x300#32 (fun _ => 0#32)] =
    [some 0x100#32, some 0x200#32, some 0x300#32] := by decide

/-- The first instruction after reset: an `isync` placed by the loader (log 9). -/
theorem test_first_instruction :
    nextMeets (step (State.reset.withFetchWord 32 0x4C00012C)) (fun t => t.cpu.pc == 0x104#32) = true := by decide
/-! ### Witnesses: for each obligation with hypotheses, states and operands that meet all of them together -/

theorem witness_DecodeEncodeAgree :
    (Instr.stwu 31#5 32767 30#5).WellFormed ∧ (Instr.stwu 31#5 (-32768) 30#5).WellFormed ∧
      (Instr.cmdBrk true true).WellFormed := by decide

theorem witness_EncodeDecodeAgree :
    decode (.word 0x97FE0004#32) = .ok (.stwu 31#5 4 30#5) ∧ decode (.dp10 0b1110000011#10) = .ok (.cmdReserved0x00011 0#1) ∧
      decode (.dp35 0b10100000000000000000011111111111100#35) = .ok (.data 0x00003FFC#32) ∧
      decodeCpu 0x7C9A03A6#32 = some (.mtsprSave .srr0 4#5) := by decide

/-- An `isync` at the pc, nothing else to happen. -/
def ready : State := atPc 0x4C00012C#32 outside

theorem witness_StepRunsDecodedInstruction : Fetches ready 0x4C00012C#32 (.table .isync) := by unfold Fetches; decide

/-- A move of SRR0 at the pc. -/
theorem witness_StepRunsDecodedInstruction_save :
    Fetches (atPc 0x7C9A03A6#32 outside) 0x7C9A03A6#32 (.mtsprSave .srr0 4#5) := by unfold Fetches; decide

theorem witness_StepRunsDeliveredInstruction :
    ∃ s w i, s = given 0x4C00012C#32 inDebug ∧ s.ext.inputs = [] ∧ s.cpu.checkStop = false ∧ s.mode.dm = true ∧
      s.cpu.wait = CpuWait.none ∧ s.cpu.dpir = some w ∧ s.ext.nmi = false ∧ s.ext.machineCheck = false ∧
      s.ext.cpuExc = none ∧
      decodeCpu w = some i := ⟨_, 0x4C00012C#32, .table .isync, rfl, by decide⟩

theorem witness_StepTakesTransmission :
    ∃ (s : State) (f : Frame) (rest : List Input) (i : Instr), s.ext.inputs = .frame f :: rest ∧
      (s.mode.dm = false ∨ s.cpu.wait ≠ CpuWait.none) ∧ decode (frameCode f) = .ok i :=
  ⟨{ outside with ext.inputs := [.frame (.short 0b1110000000#10)] }, _, [], .cmdNop 0#2, rfl, by decide, by decide⟩

/-- In debug mode ready is the CPU's waiting, for an instruction or for data. -/
theorem witness_StepTakesTransmission_debug :
    [inDebug, reading].all (fun s => decide (s.mode.dm = true ∧ (s.mode.dm = false ∨ s.cpu.wait ≠ CpuWait.none))) := by
  decide

/-- A `stwu r5,4(r6)` at the pc. -/
def storing : State := atPc 0x94A60004#32 outside

theorem witness_StepKeepsMemoryCanonical : MemoryCanonical storing ∧ ∃ t, step storing = .next t :=
  ⟨by unfold MemoryCanonical; decide, _, rfl⟩

theorem witness_StepKeepsPcAligned : PcAligned storing ∧ ∃ t, step storing = .next t :=
  ⟨by unfold PcAligned; decide, _, rfl⟩

theorem witness_StepKeepsModesConsistent : ModesConsistent storing ∧ ∃ t, step storing = .next t :=
  ⟨⟨by decide, by decide, by decide, by decide, by decide⟩, _, rfl⟩

/-- The same in debug mode. -/
theorem witness_StepKeepsModesConsistent_debug :
    ModesConsistent (given 0x4C000064#32 inDebug) ∧ ∃ t, step (given 0x4C000064#32 inDebug) = .next t :=
  ⟨⟨by decide, by decide, by decide, by decide, by decide⟩, _, rfl⟩

theorem witness_StepKeepsReservedClear : ReservedClear storing ∧ ∃ t, step storing = .next t :=
  ⟨⟨by decide, by decide, by decide, by decide, by decide, by decide⟩, _, rfl⟩

theorem witness_OnlyResetChangesDebugModeEnable : ¬ResetNext storing ∧ ∃ t, step storing = .next t :=
  ⟨fun h => h, _, rfl⟩

theorem witness_DebugModeEntryAndExitAreGuarded :
    storing.mode.dme = false ∧ storing.mode.dm = false ∧ ¬ResetNext storing ∧ ∃ t, step storing = .next t :=
  ⟨rfl, rfl, fun h => h, _, rfl⟩

/-- The second clause. -/
theorem witness_DebugModeEntryAndExitAreGuarded_rfi :
    (given 0x4C000064#32 inDebug).mode.dm = true ∧ ¬ResetNext (given 0x4C000064#32 inDebug) ∧
      ∃ t, step (given 0x4C000064#32 inDebug) = .next t ∧ t.mode.dm = false := ⟨rfl, fun h => h, _, rfl, rfl⟩

/-- An `mtspr DER,r4` that the tool has delivered. -/
def writingDer : State := given 0x7C9523A6#32 (writeGpr 4#5 0x2102000F#32 inDebug)

theorem witness_DerChangedOnlyByMtsprOrReset :
    ¬ResetNext writingDer ∧ ∃ t, step writingDer = .next t ∧ t.dev.der ≠ writingDer.dev.der :=
  ⟨fun h => h, _, rfl, by decide⟩

/-- The same outside debug mode. -/
theorem witness_DerChangedOnlyByMtsprOrReset_outside :
    ∃ s t, s = atPc 0x7C9523A6#32 (writeGpr 4#5 0x2102000F#32 outside) ∧ ¬ResetNext s ∧ step s = .next t ∧
      t.dev.der ≠ s.dev.der := ⟨_, _, rfl, fun h => h, rfl, by decide⟩

theorem witness_ProtectedRegistersKeepOutsideDebugMode :
    ∃ s t, s = atPc 0x7C7023A6#32 (writeGpr 3#5 0x1010#32 enabledMode) ∧ s.mode.dme = true ∧ s.mode.dm = false ∧
      ¬ResetNext s ∧ step s = .next t := ⟨_, _, rfl, rfl, rfl, fun h => h, rfl⟩

/-- One state serves every register: not user mode, and the counters read exactly. -/
theorem witness_MfsprReads :
    Spr.ictrl ≠ .dpdr ∧ outside.cpu.msr.pr = false ∧ CounterExact outside.dev.counta outside.syncedA outside.cpu.flight.iwp0 outside ∧
      CounterExact outside.dev.countb outside.syncedB outside.cpu.flight.iwp1 outside := by
  unfold CounterExact; decide

/-- An active counter after a `sync`. -/
theorem witness_MfsprReads_active :
    Spr.counta ≠ .dpdr ∧ outside.cpu.msr.pr = false ∧ CounterExact ⟨3#16, 0b01#2⟩ true false outside := by
  unfold CounterExact; decide

/-- ECR: cleared, and kept. -/
theorem witness_MfsprEcrAndDpdr :
    (outside.cpu.msr.pr = false ∧ outside.mode.dme = false) ∧ (inDebug.cpu.msr.pr = false ∧ inDebug.mode.dm = true) ∧
      (enabledMode.cpu.msr.pr = false ∧ enabledMode.mode.dme = true ∧ enabledMode.mode.dm = false) := by decide

theorem witness_MfsprEcrAndDpdr_dpdr : outside.cpu.msr.pr = false ∧ inDebug.cpu.msr.pr = false := by decide

theorem witness_MtsprWritesOrIsNotPerformed :
    (outside.cpu.msr.pr = false ∧ (outside.mode.dme = false ∨ outside.mode.dm = true)) ∧
      (inDebug.cpu.msr.pr = false ∧ (inDebug.mode.dme = false ∨ inDebug.mode.dm = true)) := by decide

/-- The second clause. -/
theorem witness_MtsprWritesOrIsNotPerformed_protected :
    enabledMode.cpu.msr.pr = false ∧ enabledMode.mode.dme = true ∧ enabledMode.mode.dm = false := by decide

/-- The three paths: recorded, debug mode, handler. -/
theorem witness_UserModeAccessIsProgramException :
    [{ inDebug with cpu.msr.pr := true }, { enabledMode with cpu.msr.pr := true, dev.der := 0x2082000F#32 }, userMode].map
      (fun s => (s.cpu.msr.pr, s.mode.dm, s.dev.der.getMsbD 8 && s.mode.dme)) =
    [(true, true, false), (true, false, true), (true, false, false)] := by decide

theorem witness_RfiReturnsOrReentersDebugMode :
    [outside, inDebug, { outside with mode.dm := true, dev.ecr := 4#32 }].all (fun s => decide (s.cpu.msr.pr = false ∧
      (s.mode.dm = false ∨ s.dev.ecr &&& s.dev.der = 0#32 ∨ s.mode.dme = false))) := by decide

/-- The second clause. -/
theorem witness_RfiReturnsOrReentersDebugMode_reenters :
    ∃ s, s = { inDebug with dev.ecr := 4#32 } ∧ s.cpu.msr.pr = false ∧ s.mode.dm = true ∧ s.mode.dme = true ∧
      s.dev.ecr &&& s.dev.der ≠ 0#32 := ⟨_, rfl, by decide⟩

theorem witness_MtmsrIsyncAndSync :
    (outside.cpu.msr.pr = false ∧ (outside.mode.dm = false ∨ (readGpr 3#5 outside).getMsbD 16 = false)) ∧
      (inDebug.cpu.msr.pr = false ∧ (inDebug.mode.dm = false ∨ (readGpr 3#5 inDebug).getMsbD 16 = false)) := by decide

/-- The second clause. -/
theorem witness_MtmsrIsyncAndSync_refused :
    ∃ s, s = writeGpr 3#5 0x8000#32 inDebug ∧ s.cpu.msr.pr = false ∧ s.mode.dm = true ∧
      (readGpr 3#5 s).getMsbD 16 = true := ⟨_, rfl, by decide⟩

/-- The third clause, with two active counters: one counts the `sync` by no watchpoint, one counts stores. -/
theorem witness_MtmsrIsyncAndSync_counters :
    ∃ s t, s = { outside with dev.counta := ⟨3#16, 0b01#2⟩, dev.countb := ⟨7#16, 0b10#2⟩ } ∧ s.cpu.msr.pr = false ∧
      s.cpu.flight.iwp0 = false ∧ s.dev.countb.cntc ≠ 0b01#2 ∧ s.syncedA = false ∧ exec .sync s = .next t ∧
      t.syncedA = true ∧ t.syncedB = true := ⟨_, _, rfl, rfl, rfl, by decide, rfl, rfl, rfl, rfl⟩

theorem witness_SaveRegisterMoves :
    [outside, enabledMode, inDebug].all (fun s => !s.cpu.msr.pr) ∧
      (userMode.cpu.msr.pr = true ∧ userMode.mode.dm = false) ∧
      ∃ s, s = { inDebug with cpu.msr.pr := true } ∧ s.cpu.msr.pr = true ∧ s.mode.dm = true :=
  ⟨by decide, by decide, _, rfl, rfl, rfl⟩

theorem witness_StwuStoresAndUpdates :
    readGpr 6#5 storing + BitVec.ofInt 32 4 = 4#32 := by decide

/-- Each of the four statuses in debug mode, and both outside it with a flag left from debug mode. -/
theorem witness_OutputFrameOfEveryTransmission :
    [{ inDebug with port.pValid := true, port.pSeq := true }, { inDebug with port.pSeq := true, port.pInt := true },
      { inDebug with port.pInt := true }, inDebug, { outside with port.pSeq := true },
      { outside with port.pValid := true, port.pInt := true }].all
      (fun s => decide ((s.mode.dm = false ∨ s.cpu.wait ≠ CpuWait.none) ∧
        isTransmission (.data 7#32) = true ∧ isTransmission (.cmdNop 0#2) = true)) := by decide

theorem witness_InputIgnoredUnderErrorStatus :
    [{ outside with port.pSeq := true }, { inDebug with port.pSeq := true }, { inDebug with port.pInt := true }].all
      (fun s => decide ((s.mode.dm = false ∨ s.cpu.wait ≠ CpuWait.none) ∧ isTransmission (.tecr 1#7) = true ∧
        (s.mode.dm = false ∨ s.port.pValid = false) ∧
        (s.port.pSeq = true ∨ (s.mode.dm = true ∧ s.port.pInt = true)))) := by decide

theorem witness_NotReadyRefusesEveryTransmission :
    (given 0x4C000064#32 inDebug).mode.dm = true ∧ (given 0x4C000064#32 inDebug).cpu.wait = CpuWait.none ∧
      isTransmission (.tecr 1#7) = true := by decide

theorem witness_TransmissionsTheCpuWaitsFor :
    inDebug.mode.dm = true ∧ inDebug.cpu.wait = CpuWait.instr ∧ NoErrorStatus inDebug := by
  unfold NoErrorStatus; decide

/-- The second clause in single-step mode. -/
theorem witness_TransmissionsTheCpuWaitsFor_traced :
    ∃ s, s = { reading with cpu.msr.se := true } ∧ s.mode.dm = true ∧ s.cpu.wait = .data 4#5 ∧ NoErrorStatus s ∧
      s.port.dlip = false ∧ s.cpu.msr.se = true := ⟨_, rfl, rfl, rfl, by unfold NoErrorStatus; decide, rfl, rfl⟩

/-- The second clause in no trace mode. -/
theorem witness_TransmissionsTheCpuWaitsFor_data :
    reading.mode.dm = true ∧ reading.cpu.wait = .data 4#5 ∧ NoErrorStatus reading ∧ reading.port.dlip = false := by
  unfold NoErrorStatus; decide

theorem witness_MisplacedTransmissionsAreSequencingErrors :
    inDebug.mode.dm = true ∧ inDebug.cpu.wait = CpuWait.instr ∧ NoErrorStatus inDebug :=
  witness_TransmissionsTheCpuWaitsFor

/-- The third clause. -/
theorem witness_MisplacedTransmissionsAreSequencingErrors_reading :
    reading.mode.dm = true ∧ reading.cpu.wait = .data 4#5 ∧ NoErrorStatus reading ∧ reading.port.dlip = false :=
  witness_TransmissionsTheCpuWaitsFor_data

/-- The second clause, without and with a sequencing error pending. -/
theorem witness_MisplacedTransmissionsAreSequencingErrors_outside :
    outside.mode.dm = false ∧ { outside with port.pSeq := true }.mode.dm = false := by decide

/-- Ready without an error status, outside and inside debug mode: TECR, CMD_BRK, the reset and the download
commands. -/
theorem witness_ready_without_error :
    [outside, inDebug, downloading].all (fun s => decide ((s.mode.dm = false ∨ s.cpu.wait ≠ CpuWait.none) ∧
      (s.port.pSeq = false ∧ (s.mode.dm = false ∨ s.port.pInt = false)))) := by decide

theorem witness_TecrLoads : (outside.mode.dm = false ∨ outside.cpu.wait ≠ CpuWait.none) ∧ NoErrorStatus outside := by
  unfold NoErrorStatus; decide

/-- A negation held back. -/
theorem witness_TecrLoads_held :
    ((syncPending.mode.dm = false ∨ syncPending.cpu.wait ≠ CpuWait.none) ∧ NoErrorStatus syncPending) ∧
      syncPending.port.tecr.vsync = true ∧ syncPending.trace.mark.ptc = true := by
  unfold NoErrorStatus; decide

theorem witness_TecrLoads_debug : (inDebug.mode.dm = false ∨ inDebug.cpu.wait ≠ CpuWait.none) ∧ NoErrorStatus inDebug := by
  unfold NoErrorStatus; decide

theorem witness_NopCommandsDoNothing :
    (inDebug.mode.dm = false ∨ inDebug.cpu.wait ≠ CpuWait.none) ∧ Instr.cmdReserved11110 3#2 ∈ nopCommands 3#2 1#1 := by
  decide

/-- Both outcomes of a reset: DSCK held, and not. -/
theorem witness_ResetCommandsReset :
    ∃ s, s = { inDebug with ext.pins := ⟨true, true, false⟩ } ∧ (s.mode.dm = false ∨ s.cpu.wait ≠ CpuWait.none) ∧
      NoErrorStatus s ∧ (s.ext.pins.dsckEnable && s.ext.pins.dsckHeld) = true ∧
      (inDebug.ext.pins.dsckEnable && inDebug.ext.pins.dsckHeld) = false :=
  ⟨_, rfl, by decide, by unfold NoErrorStatus; decide, rfl, rfl⟩

theorem witness_BreakCommandSetsBothRequests :
    (outside.mode.dm = false ∨ outside.cpu.wait ≠ CpuWait.none) ∧ NoErrorStatus outside := witness_TecrLoads

/-- A start with an end requested: a no-op while in progress and outside debug mode, so the request stays. -/
theorem witness_DownloadCommands_noOp :
    ∃ s u, s = { downloading with port.dlEnd := true } ∧ u = { outside with port.dlip := true, port.dlEnd := true } ∧
      ((s.mode.dm = false ∨ s.cpu.wait ≠ CpuWait.none) ∧ NoErrorStatus s ∧ (s.mode.dm && !s.port.dlip) = false) ∧
      ((u.mode.dm = false ∨ u.cpu.wait ≠ CpuWait.none) ∧ NoErrorStatus u ∧ (u.mode.dm && !u.port.dlip) = false) :=
  ⟨_, _, rfl, rfl, by unfold NoErrorStatus; decide⟩

/-- Outside debug mode, waiting for an instruction, and with a download in progress. -/
theorem witness_DownloadCommands :
    ((outside.mode.dm = false ∨ outside.cpu.wait ≠ CpuWait.none) ∧ NoErrorStatus outside) ∧
      ((inDebug.mode.dm = false ∨ inDebug.cpu.wait ≠ CpuWait.none) ∧ NoErrorStatus inDebug) ∧
      ((downloading.mode.dm = false ∨ downloading.cpu.wait ≠ CpuWait.none) ∧ NoErrorStatus downloading) := by
  unfold NoErrorStatus; decide

/-- P2 row 4. -/
def downloadRow : State :=
  { writeGpr 30#5 0x3FFC#32 downloading with ext.inputs := [.frame (.long (0b101#3 ++ 0xAAAA0001#32))] }

theorem witness_FastDownloadStoresWord :
    downloadRow.mode.dm = true ∧ downloadRow.cpu.wait = .data 31#5 ∧ NoErrorStatus downloadRow ∧
      downloadRow.port.dlip = true ∧ downloadRow.port.dlEnd = false ∧ downloadRow.port.dlStore = true ∧
      downloadRow.ext.inputs = [.frame (.long (0b101#3 ++ 0xAAAA0001#32))] ∧ downloadRow.ext.nmi = false ∧
      downloadRow.ext.machineCheck = false ∧ downloadRow.ext.cpuExc = none ∧ downloadRow.cpu.checkStop = false ∧
      downloadRow.cpu.msr.se = false ∧ downloadRow.cpu.msr.be = false ∧
      downloadRow.cpu.msr.pr = false := by
  unfold NoErrorStatus; decide

/-- The third clause of `TransmissionsTheCpuWaitsFor`. -/
theorem witness_TransmissionsTheCpuWaitsFor_end :
    ∃ s, s = { downloading with port.dlEnd := true } ∧ s.mode.dm = true ∧ s.cpu.wait = .data 31#5 ∧ NoErrorStatus s ∧
      s.port.dlip = true ∧ s.port.dlEnd = true := ⟨_, rfl, rfl, rfl, by unfold NoErrorStatus; decide, rfl, rfl⟩

/-- DME = 0 with the DER bit set, and DME = 1 with it clear. -/
theorem witness_RegularExceptionTaken :
    Event.instrBreak ≠ .checkStop ∧ Event.alignment ≠ .checkStop ∧
      (outside.mode.dm = false ∧ (outside.dev.der &&& eventMask .instrBreak = 0#32 ∨ outside.mode.dme = false)) ∧
      (enabledMode.mode.dm = false ∧ (enabledMode.dev.der &&& eventMask .alignment = 0#32 ∨ enabledMode.mode.dme = false)) := by
  decide

theorem witness_DebugModeEntered :
    enabledMode.mode.dm = false ∧ enabledMode.dev.der &&& eventMask .instrBreak ≠ 0#32 ∧ enabledMode.mode.dme = true := by
  decide

theorem witness_EventMasksAndRecordingInDebugMode : inDebug.mode.dm = true := by decide

theorem witness_MachineCheckTable : outside.mode.dm = false ∧ outside.cpu.checkStop = false := by decide

/-- The second clause with ME = 0 and ME = 1, and the third. -/
theorem witness_MachineCheckTable_step :
    ([false, true].all fun me =>
      decide ((fun s : State => s.mode.dm = false ∧ s.cpu.checkStop = false ∧ s.ext.inputs = [] ∧ s.ext.machineCheck = true ∧
        s.ext.nmi = false ∧ (s.ext.extInt && s.cpu.msr.ee) = false ∧ (s.ext.decr && s.cpu.msr.ee) = false ∧
        s.port.tecr.nmbrk = false ∧ ((s.port.tecr.mbrk || s.ext.moduleBrk) && s.cpu.msr.ri) = false)
          { outside with cpu.msr.me := me, ext.machineCheck := true })) = true ∧
    ∃ s, s = { inDebug with ext.inputs := [.machineCheck] } ∧ s.ext.inputs = .machineCheck :: [] ∧ s.mode.dm = true :=
  ⟨by decide, _, rfl, rfl, rfl⟩

theorem witness_CheckStopIsStuck :
    ∃ s, s = { outside with cpu.checkStop := true } ∧ s.cpu.checkStop = true ∧ s.ext.inputs = [] := ⟨_, rfl, by decide⟩

/-- The second clause: a run token. -/
theorem witness_CheckStopIsStuck_next :
    ∃ s t, s = { outside with cpu.checkStop := true, ext.inputs := [.run] } ∧ s.cpu.checkStop = true ∧ s.mode.dm = false ∧
      ¬ResetNext s ∧ step s = .next t := ⟨_, _, rfl, rfl, rfl, fun h => h, rfl⟩

/-- What `BreakRequestsTaken` asks of every state. -/
def QuietForRequests (s : State) : Prop :=
  s.ext.inputs = [] ∧ s.cpu.checkStop = false ∧ s.mode.dm = false ∧ s.ext.nmi = false ∧
    (s.ext.extInt && s.cpu.msr.ee) = false ∧ (s.ext.decr && s.cpu.msr.ee) = false

theorem witness_BreakRequestsTaken_nonMaskable :
    ∃ s, s = { enabledMode with port.tecr.nmbrk := true } ∧ QuietForRequests s ∧ s.port.tecr.nmbrk = true ∧
      s.nmbrkTaken = false ∧ ((s.port.tecr.mbrk || s.ext.moduleBrk) && s.cpu.msr.ri) = false :=
  ⟨_, rfl, by unfold QuietForRequests; decide, by decide⟩

theorem witness_BreakRequestsTaken_maskable :
    ∃ s, s = { enabledMode with port.tecr.mbrk := true } ∧ QuietForRequests s ∧ s.port.tecr.nmbrk = false ∧
      (s.port.tecr.mbrk || s.ext.moduleBrk) = true ∧ s.cpu.msr.ri = true :=
  ⟨_, rfl, by unfold QuietForRequests; decide, by decide⟩

/-- The third clause: a request is asserted and MSR.RI = 0, an `isync` at the pc. -/
theorem witness_BreakRequestsTaken_masked :
    ∃ s t, s = { ready with cpu.msr.ri := false, port.tecr.mbrk := true } ∧ QuietForRequests s ∧ s.port.tecr.nmbrk = false ∧
      s.cpu.msr.ri = false ∧ s.dev.ecr.getMsbD 30 = false ∧ step s = .next t :=
  ⟨_, _, rfl, by unfold QuietForRequests; decide, rfl, rfl, rfl, rfl⟩

/-- The first and the last byte, half-word and word. -/
theorem witness_LoadStoreAddressComparators :
    [(⟨0#32, false, 1, 0#32⟩ : BusCycle), ⟨0xFFFFFFFF#32, true, 1, 0#32⟩, ⟨0xFFFFFFFE#32, true, 2, 0#32⟩,
      ⟨0xFFFFFFFC#32, true, 4, 0#32⟩].all
      (fun c => decide ((c.size = 1 ∨ c.size = 2 ∨ c.size = 4) ∧ c.addr.toNat % c.size = 0)) := by decide

/-- What `DataComparators` asks of a compare unit of `u` bytes from lane `lo` on, for lane `j`, and of a cycle. -/
def UnitOfLane (p : DataCompare) (c : BusCycle) (j u lo : Nat) : Prop :=
  j < 4 ∧ ((p.size = 0b11#2 ∧ u = 1) ∨ (p.size = 0b10#2 ∧ u = 2) ∨ (p.size = 0b01#2 ∧ u = 4)) ∧ lo = j - j % u ∧
    (c.size = 1 ∨ c.size = 2 ∨ c.size = 4) ∧ c.addr.toNat % c.size = 0

/-- A byte unit at the last lane, valid and not masked. -/
theorem witness_DataComparators_byte :
    ∃ (p : DataCompare) (c : BusCycle), UnitOfLane p c 3 1 3 ∧ c.addr.toNat % 4 ≤ 3 ∧ 3 + 1 ≤ c.addr.toNat % 4 + c.size ∧
      (∀ k, 3 ≤ k → k < 3 + 1 → p.mask.getMsbD k = false) :=
  ⟨⟨0b100#3, 0b11#2, false, 0#4, 0#32⟩, ⟨3#32, false, 1, 9#32⟩, by unfold UnitOfLane; decide, by decide, by decide,
    fun k _ _ => by simp⟩

/-- A half-word unit and a word unit, valid and not masked. -/
theorem witness_DataComparators_wide :
    UnitOfLane ⟨0b101#3, 0b10#2, true, 0#4, 0#32⟩ ⟨2#32, false, 2, 9#32⟩ 3 2 2 ∧
      UnitOfLane ⟨0b110#3, 0b01#2, true, 0#4, 0#32⟩ ⟨0xFFFFFFFC#32, true, 4, 9#32⟩ 3 4 0 ∧
      (∀ k, (0#4).getMsbD k = false) := by
  refine ⟨by unfold UnitOfLane; decide, by unfold UnitOfLane; decide, fun k => by simp⟩

/-- The clauses without a match: a smaller cycle, a lane without information, every byte masked. -/
theorem witness_DataComparators_none :
    (UnitOfLane ⟨0b100#3, 0b01#2, false, 0#4, 0#32⟩ ⟨1#32, false, 1, 0#32⟩ 0 4 0 ∧ 1 < 4) ∧
      (UnitOfLane ⟨0b100#3, 0b10#2, false, 0#4, 0#32⟩ ⟨2#32, false, 2, 0#32⟩ 0 2 0 ∧ ¬(2 ≤ 0 ∧ 0 + 2 ≤ 2 + 2)) ∧
      (UnitOfLane ⟨0b100#3, 0b01#2, false, 0b1111#4, 0#32⟩ ⟨0#32, false, 4, 0#32⟩ 0 4 0 ∧
        ∀ k : Fin 4, (0b1111#4).getMsbD k = true) := by
  refine ⟨⟨by unfold UnitOfLane; decide, by decide⟩, ⟨by unfold UnitOfLane; decide, by decide⟩,
    by unfold UnitOfLane; decide, by decide⟩

/-- IW0 in ICTRL and LW1 in the TECR: the six enables, and recognised breakpoints with both counters inactive. -/
theorem witness_TrapEnablesAreOred :
    ∃ (s : State) (ien len : Nat → Bool), s = { outside with dev.ictrl := 0x800#32, port.tecr.lw1 := true } ∧
      (ien 0 = (s.dev.ictrl.getMsbD 20 || s.port.tecr.iw0) ∧ ien 1 = (s.dev.ictrl.getMsbD 21 || s.port.tecr.iw1) ∧
        ien 2 = (s.dev.ictrl.getMsbD 22 || s.port.tecr.iw2) ∧ ien 3 = (s.dev.ictrl.getMsbD 23 || s.port.tecr.iw3)) ∧
      (len 0 = (s.dev.lctrl2.getMsbD 30 || s.port.tecr.lw0) ∧ len 1 = (s.dev.lctrl2.getMsbD 31 || s.port.tecr.lw1)) ∧
      (s.dev.lctrl2.getMsbD 20 = true ∨ s.cpu.msr.ri = true) ∧ s.dev.counta.cntc = 0#2 ∧ s.dev.countb.cntc = 0#2 :=
  ⟨_, fun n => n == 0, fun n => n == 1, rfl, by decide⟩

theorem witness_InstructionBreakpointBeforeExecution :
    ∃ s, s = watched1000 0x80080807#32 0#32 true ∧ Fetches s 0x4C00012C#32 (.table .isync) ∧
      (∀ rs, CpuInstr.table .isync ≠ .table (.mtsprIctrl rs)) ∧
      s.dev.counta.cntc = 0#2 ∧ s.dev.countb.cntc = 0#2 ∧ (s.dev.lctrl2.getMsbD 20 = true ∨ s.cpu.msr.ri = true) ∧
      s.dev.ictrl.getMsbD 28 = false ∧ instrBreakDirect (fetched s) = true :=
  ⟨_, rfl, by unfold Fetches; decide, (fun _ h => Instr.noConfusion (CpuInstr.table.inj h)), by decide⟩

/-- The instruction completes in a state `u` without an exception and without a bus cycle. -/
theorem witness_IgnoredFirstMatchExecutes :
    ∃ s u, s = watched1000 0x8008080F#32 0#32 true ∧ Fetches s 0x4C00012C#32 (.table .isync) ∧
      (∀ rs, CpuInstr.table .isync ≠ .table (.mtsprIctrl rs)) ∧ s.dev.counta.cntc = 0#2 ∧
      s.dev.countb.cntc = 0#2 ∧ (s.dev.lctrl2.getMsbD 20 = true ∨ s.cpu.msr.ri = true) ∧
      s.dev.ictrl.getMsbD 28 = true ∧ instrBreakDirect (fetched s) = true ∧ s.cpu.msr.se = false ∧
      s.cpu.msr.be = false ∧ execCpu (.table .isync) (passBreak (fetched s)) = .next u ∧ u.cpu.flight.excepted = false ∧
      u.cpu.flight.cycles = [] :=
  ⟨_, _, rfl, by unfold Fetches; decide, (fun _ h => Instr.noConfusion (CpuInstr.table.inj h)), rfl, rfl, by decide, by decide, by decide, rfl,
    rfl, rfl, by decide, by decide⟩

/-- LCTRL2: LW0EN and SLW0EN, no condition. -/
theorem witness_LoadStoreBreakpointAfterExecution :
    ∃ s, s = watchedStore 0x80000002#32 ⟨0#16, 0#2⟩ ∧ Fetches s 0x94A60004#32 (.table (.stwu 5#5 4 6#5)) ∧
      s.dev.counta.cntc = 0#2 ∧ s.dev.countb.cntc = 0#2 ∧ s.cpu.msr.se = false ∧ s.cpu.msr.be = false ∧
      (s.dev.lctrl2.getMsbD 20 = true ∨ s.cpu.msr.ri = true) ∧ instrBreakDirect (fetched s) = false ∧
      s.dev.lctrl2.getMsbD 0 = true ∧ s.dev.lctrl2.getMsbD 3 = false ∧ s.dev.lctrl2.getMsbD 6 = false ∧
      s.dev.lctrl2.getMsbD 9 = false ∧ s.dev.lctrl2.getMsbD 30 = true :=
  ⟨_, rfl, by unfold Fetches; decide, by decide⟩

/-- COUNTA counts IWP0 of the `isync` at 0x1000. -/
def counting (n : BitVec 16) : State := { watched1000 0x80080007#32 0#32 true with dev.counta := ⟨n, 0b01#2⟩ }

/-- COUNTB counts IWP1 of the `isync` at 0x1000. -/
def countingB (n : BitVec 16) : State :=
  { watched1000 0x10020007#32 0#32 true with dev.cmpb := 0x400#30, dev.countb := ⟨n, 0b01#2⟩ }

/-- What `InstructionCounterCountsAndExpires` asks of every state. -/
def FetchesUnbroken (s : State) : Prop :=
  Fetches s 0x4C00012C#32 (.table .isync) ∧ (s.dev.lctrl2.getMsbD 20 = true ∨ s.cpu.msr.ri = true) ∧
    instrBreakDirect (fetched s) = false

/-- What it asks with COUNTA, and with COUNTB. -/
def CountsIsync (s : State) : Prop :=
  FetchesUnbroken s ∧ s.dev.counta.cntc = 0b01#2 ∧ s.dev.countb.cntc = 0#2 ∧ (fetched s).cpu.flight.iwp0 = true

def CountsIsyncB (s : State) : Prop :=
  FetchesUnbroken s ∧ s.dev.countb.cntc = 0b01#2 ∧ s.dev.counta.cntc = 0#2 ∧ (fetched s).cpu.flight.iwp1 = true

/-- The clauses at their bounds: 2 counts, 1 expires. -/
theorem witness_InstructionCounterCountsAndExpires :
    (CountsIsync (counting 2#16) ∧ 1#16 < (counting 2#16).dev.counta.cntv) ∧
      (CountsIsync (counting 0xFFFF#16) ∧ 1#16 < (counting 0xFFFF#16).dev.counta.cntv) ∧
      (CountsIsync (counting 1#16) ∧ (counting 1#16).dev.counta.cntv = 1#16) := by
  unfold CountsIsync FetchesUnbroken Fetches; decide

/-- The same of COUNTB. -/
theorem witness_InstructionCounterCountsAndExpires_b :
    (CountsIsyncB (countingB 2#16) ∧ 1#16 < (countingB 2#16).dev.countb.cntv) ∧
      (CountsIsyncB (countingB 1#16) ∧ (countingB 1#16).dev.countb.cntv = 1#16) := by
  unfold CountsIsyncB FetchesUnbroken Fetches; decide

/-- The instruction completes in a state `u` without an exception and without a bus cycle. -/
theorem witness_InstructionCounterCountsAndExpires_next :
    ∃ u, execCpu (.table .isync) (passBreak (fetched (counting 2#16))) = .next u ∧ u.cpu.flight.excepted = false ∧
      u.cpu.flight.cycles = [] ∧ (counting 2#16).cpu.msr.se = false ∧ (counting 2#16).cpu.msr.be = false ∧
      (∀ rs, CpuInstr.table .isync ≠ .table (.mtsprIctrl rs)) ∧ (∀ rs, CpuInstr.table .isync ≠ .table (.mtsprCounta rs)) ∧
      (∀ rs, CpuInstr.table .isync ≠ .table (.mtsprCountb rs)) :=
  ⟨_, rfl, by decide, by decide, rfl, rfl, (fun _ h => Instr.noConfusion (CpuInstr.table.inj h)),
    (fun _ h => Instr.noConfusion (CpuInstr.table.inj h)), (fun _ h => Instr.noConfusion (CpuInstr.table.inj h))⟩

/-- A store watched by LWP1 alone, that COUNTB counts. -/
def watchedStoreB (n : BitVec 16) : State :=
  { watchedStore 0x00200000#32 ⟨0#16, 0#2⟩ with dev.countb := ⟨n, 0b10#2⟩ }

/-- What `LoadStoreCounterCountsToZero` asks of every state. -/
def StoresUnbroken (s : State) : Prop :=
  Fetches s 0x94A60004#32 (.table (.stwu 5#5 4 6#5)) ∧ (s.dev.lctrl2.getMsbD 20 = true ∨ s.cpu.msr.ri = true) ∧
    instrBreakDirect (fetched s) = false ∧ s.cpu.msr.se = false ∧ s.cpu.msr.be = false ∧
    (s.dev.lctrl2.getMsbD 30 || s.port.tecr.lw0) = false ∧ (s.dev.lctrl2.getMsbD 31 || s.port.tecr.lw1) = false

/-- LWP0 without a condition and COUNTA, at 2 and at 1. -/
theorem witness_LoadStoreCounterCountsToZero :
    (StoresUnbroken (watchedStore 0x80000000#32 ⟨2#16, 0b10#2⟩) ∧ 1#16 < 2#16) ∧
      StoresUnbroken (watchedStore 0x80000000#32 ⟨1#16, 0b10#2⟩) ∧
      (0x80000000#32).getMsbD 0 = true ∧ (0x80000000#32).getMsbD 3 = false ∧ (0x80000000#32).getMsbD 6 = false ∧
      (0x80000000#32).getMsbD 9 = false := by
  unfold StoresUnbroken Fetches; decide

/-- LWP1 without a condition and COUNTB, at 2 and at 1. -/
theorem witness_LoadStoreCounterCountsToZero_b :
    (StoresUnbroken (watchedStoreB 2#16) ∧ 1#16 < 2#16) ∧ StoresUnbroken (watchedStoreB 1#16) ∧
      (watchedStoreB 1#16).dev.countb.cntc = 0b10#2 ∧ (watchedStoreB 1#16).dev.counta.cntc = 0#2 ∧
      (0x00200000#32).getMsbD 10 = true ∧ (0x00200000#32).getMsbD 13 = false ∧ (0x00200000#32).getMsbD 16 = false ∧
      (0x00200000#32).getMsbD 19 = false := by
  unfold StoresUnbroken Fetches; decide

/-- Masked mode: the `isync` at 0x1000 has IWP0 with its trap enabled, IFM set, and COUNTA at 1 counting IWP0. -/
def masked : State := { watched1000 0x8008080F#32 0#32 false with dev.counta := ⟨1#16, 0b01#2⟩ }

theorem witness_MaskedModeLosesBreakpoints :
    ∃ u, Fetches masked 0x4C00012C#32 (.table .isync) ∧ masked.dev.lctrl2.getMsbD 20 = false ∧
      masked.cpu.msr.ri = false ∧ (fetched masked).cpu.flight.iwp0 = true ∧ instrBreakDirect (fetched masked) = true ∧
      execCpu (.table .isync) (passBreak (fetched masked)) = .next u ∧ masked.cpu.msr.se = false ∧
      masked.cpu.msr.be = false := ⟨_, by unfold Fetches; decide, by decide, by decide, by decide, by decide, rfl, by decide⟩

/-- An instruction that completes, with MSR.RI = 0: the pin of IWP0 pulses. -/
theorem witness_WatchpointPinsAtRetirement :
    ∃ u t, Fetches masked 0x4C00012C#32 (.table .isync) ∧ instrBreakTaken (some (.table .isync)) (fetched masked) = false ∧
      execCpu (.table .isync) (passBreak (fetched masked)) = .next u ∧ u.cpu.flight.excepted = false ∧
      step masked = .next t ∧ t.trace.pins = ⟨true, false, false, false, false⟩ :=
  ⟨_, _, by unfold Fetches; decide, by decide, rfl, by decide, rfl, by decide⟩

/-- A store with LW0EN and no condition, which breaks: the pin of LWP0 pulses. -/
theorem witness_WatchpointPinsAtRetirement_store :
    ∃ s u t, s = watchedStore 0x80000002#32 ⟨0#16, 0#2⟩ ∧ Fetches s 0x94A60004#32 (.table (.stwu 5#5 4 6#5)) ∧
      instrBreakTaken (some (.table (.stwu 5#5 4 6#5))) (fetched s) = false ∧
      execCpu (.table (.stwu 5#5 4 6#5)) (passBreak (fetched s)) = .next u ∧ u.cpu.flight.excepted = false ∧
      step s = .next t ∧ t.trace.pins = ⟨false, false, false, true, false⟩ :=
  ⟨_, _, _, rfl, by unfold Fetches; decide, by decide, rfl, by decide, rfl, by decide⟩

/-- A privileged instruction in user mode. -/
theorem witness_WatchpointPinsAtRetirement_excepted :
    ∃ s u, s = { masked with cpu.msr.pr := true, mem := memWriteWord 0x1000#32 0x4C000064#32 [] } ∧
      Fetches s 0x4C000064#32 (.table .rfi) ∧ instrBreakTaken (some (.table .rfi)) (fetched s) = false ∧
      execCpu (.table .rfi) (passBreak (fetched s)) = .next u ∧ u.cpu.flight.excepted = true :=
  ⟨_, _, rfl, by unfold Fetches; decide, by decide, rfl, by decide⟩

/-- Changes of VSYNC that wait, with ISCTL = 11: the step shows the marked address and reports one of them. -/
theorem witness_ShowCycles :
    ∃ s t, s = { syncPending with port.tecr.vsync := false, trace.vsyncHeld := 1 } ∧ Fetches s 0x7C0004AC#32 (.table .sync) ∧
      step s = .next t ∧ s.trace.vsyncHeld ≠ 0 ∧ t.trace.vsyncHeld = 0 :=
  ⟨_, _, rfl, by unfold Fetches; decide, rfl, by decide, by decide⟩

/-- Every value of ISCTL, without and with VSYNC, with a plain and with a marked fetch. -/
theorem witness_ShowCycles_programming :
    ∀ v : Bool, ∀ p ∈ [0b000#3, 0b001#3, 0b010#3, 0b011#3, 0b111#3],
      ∀ m ∈ [FetchMark.plain, FetchMark.indirect, ⟨false, true, false⟩],
        Fetches { syncPending with trace.isct := p, port.tecr.vsync := v, trace.mark := m } 0x7C0004AC#32 (.table .sync) ∧
          nextMeets (step { syncPending with trace.isct := p, port.tecr.vsync := v, trace.mark := m })
            (fun _ => true) = true := by
  unfold Fetches; decide

/-- What `InterruptsRecognised` asks outside debug mode. -/
def NoBreakRequest (s : State) : Prop :=
  s.ext.inputs = [] ∧ s.cpu.checkStop = false ∧ s.mode.dm = false ∧ s.port.tecr.nmbrk = false ∧
    ((s.port.tecr.mbrk || s.ext.moduleBrk) && s.cpu.msr.ri) = false

/-- The NMI, the external interrupt and the decrementer. -/
theorem witness_InterruptsRecognised :
    ∃ a b c : State, a = { outside with ext.nmi := true } ∧ b = { outside with ext.extInt := true, cpu.msr.ee := true } ∧
      c = { outside with ext.decr := true, cpu.msr.ee := true } ∧ NoBreakRequest a ∧ NoBreakRequest b ∧ NoBreakRequest c ∧
      [a, b, c].all (fun s => !s.ext.machineCheck) ∧ (a.ext.nmi = true ∧ (a.ext.extInt || a.ext.decr) = false) ∧
      (b.ext.nmi = false ∧ b.ext.extInt = true ∧ b.ext.decr = false ∧ b.cpu.msr.ee = true) ∧
      (c.ext.nmi = false ∧ c.ext.extInt = false ∧ c.ext.decr = true ∧ c.cpu.msr.ee = true) :=
  ⟨_, _, _, rfl, rfl, rfl, by unfold NoBreakRequest; decide, by unfold NoBreakRequest; decide,
    by unfold NoBreakRequest; decide, by decide⟩

/-- The clause with EE = 0, and the NMI in debug mode. -/
theorem witness_InterruptsRecognised_masked :
    (∃ s t, s = { ready with ext.extInt := true, ext.decr := true } ∧ NoBreakRequest s ∧ s.cpu.msr.ee = false ∧
      step s = .next t) ∧
    ∃ s, s = { inDebug with ext.inputs := [.nmi] } ∧ s.ext.inputs = .nmi :: [] ∧ s.mode.dm = true :=
  ⟨⟨_, _, rfl, by unfold NoBreakRequest; decide, rfl, rfl⟩, _, rfl, rfl, rfl⟩

/-- What `CpuExceptionsAsInputs` asks of a state. -/
def Excepting (s : State) (e : CpuExc) : Prop :=
  s.ext.inputs = [] ∧ s.cpu.checkStop = false ∧ s.mode.dm = false ∧ (s.port.tecr.nmbrk && s.nmbrkTaken) = false ∧
    pendingEvents s = [] ∧ s.trace.isct ≠ 0b100#3 ∧ s.ext.cpuExc = some e ∧ s.dev.counta.cntc = 0#2 ∧
    s.dev.countb.cntc = 0#2 ∧ instrBreakDirect (fetched s) = false

/-- With no memory at the pc, and with an instruction there; the machine check with ME = 0 and ME = 1. -/
theorem witness_CpuExceptionsAsInputs :
    Excepting { outside with ext.cpuExc := some .itlbError } .itlbError ∧
      Excepting { ready with ext.cpuExc := some .alignment } .alignment ∧
      Excepting { ready with ext.cpuExc := some .sysCall } .sysCall ∧
      Excepting { enabledMode with ext.cpuExc := some .machineCheck } .machineCheck ∧
      Excepting { ready with ext.cpuExc := some .machineCheck, cpu.msr.me := true } .machineCheck := by
  unfold Excepting; decide

/-- An `isync` that completes, in single-step mode and in neither trace mode. -/
theorem witness_SingleStepTraceEvent :
    ∀ b : Bool, ∃ s u, s = { watched1000 0x7#32 0#32 true with cpu.msr.se := b } ∧ Fetches s 0x4C00012C#32 (.table .isync) ∧
      CpuInstr.table .isync ≠ .table .rfi ∧ s.dev.counta.cntc = 0#2 ∧ s.dev.countb.cntc = 0#2 ∧ instrBreakDirect (fetched s) = false ∧
      execCpu (.table .isync) (passBreak (fetched s)) = .next u ∧ u.cpu.flight.excepted = false ∧ s.cpu.msr.se = b ∧
      s.cpu.msr.be = false := by
  intro b
  exact ⟨_, _, rfl, by unfold Fetches; revert b; decide, by decide, rfl, rfl, by revert b; decide, rfl,
    by revert b; decide, rfl, rfl⟩

theorem witness_NothingCountsInDebugMode :
    ∃ s t, s = given 0x4C00012C#32 inDebug ∧ s.ext.inputs = [] ∧ s.mode.dm = true ∧ s.trace.pins = WatchPins.quiet ∧
      step s = .next t := ⟨_, _, rfl, rfl, rfl, rfl, rfl⟩

/-- A word of the tool writes COUNTA, COUNTB, ICTRL or BAR. -/
theorem witness_NothingCountsInDebugMode_writes :
    [(0x7C9623A6#32, Spr.counta), (0x7C9723A6#32, .countb), (0x7C9E23A6#32, .ictrl), (0x7C9F23A6#32, .bar)].all
      (fun p => nextMeets (step (given p.1 (writeGpr 4#5 0x00050001#32 inDebug)))
        (fun t => t.dev == sprWritten p.2 0x00050001#32 inDebug.dev && t.dev != inDebug.dev)) = true := by decide

/-- The flush counts 0 and 5 on VF; VFLS with and without freeze. -/
theorem witness_StatusPinDecoders :
    (0b000#3).toNat = (0 : Fin 6).val ∧ (0b101#3).toNat = (5 : Fin 6).val ∧ outside.mode.frz = false ∧
      inDebug.mode.frz = true := by decide

end Sys2Proof.Machine.Tests
end

section
/-! SUPPORT and PROOFS. The control state (pc, MSR, ECR, DER, LCTRL1, LCTRL2, ICTRL, DME) and the single changes the
machine makes to it. That every step is a sequence of these changes is shown once (`step_changes`); what a step does to one
of the registers then follows from what the single changes do to it. The events and `mfspr` of ECR and DPDR stand at the
end. -/

namespace Sys2Proof.Machine

/-! ### The control state and its changes -/

/-- The part of the state that the invariants of the control registers speak of. -/
structure Control where
  pc : Word
  msr : Msr
  ecr : Word
  der : Word
  lctrl1 : Word
  lctrl2 : Word
  ictrl : Word
  dme : Bool

/-- The control state of a machine state. -/
def control (s : State) : Control where
  pc := s.cpu.pc
  msr := s.cpu.msr
  ecr := s.dev.ecr
  der := s.dev.der
  lctrl1 := s.dev.lctrl1
  lctrl2 := s.dev.lctrl2
  ictrl := s.dev.ictrl
  dme := s.mode.dme

/-- The single changes of the control state. `reset` and `der` are the conditions under which a reset and a write of DER
may be among them. -/
inductive Change (reset der : Prop) (c : Control) : Control → Prop where
  | advance : Change reset der c { c with pc := c.pc + 4#32 }
  | jump (a : BitVec 30) : Change reset der c { c with pc := a ++ 0#2 }
  | setMsr (m : Msr) (h : m.other &&& msrNamedMask = 0#32) : Change reset der c { c with msr := m }
  | recordCause (e : Event) : Change reset der c { c with ecr := c.ecr ||| eventMask e }
  | clearCauses : Change reset der c { c with ecr := 0#32 }
  | writeDer (h : der) (v : Word) : Change reset der c { c with der := v &&& causeMask }
  | writeLctrl1 (v : Word) : Change reset der c { c with lctrl1 := v &&& lctrl1Writable }
  | writeLctrl2 (v : Word) : Change reset der c { c with lctrl2 := v &&& lctrl2Writable }
  | writeIctrl (v : Word) : Change reset der c { c with ictrl := v &&& ictrlWritable }
  | setIfm (b : Bool) : Change reset der c { c with ictrl := Machine.setIfm b c.ictrl }
  | reset (h : reset) (b : Bool) : Change reset der c { control State.reset with dme := b }

/-- `t` is reached from `s` by changes of the control state, and by changes of the rest of the state. -/
def Changes (reset der : Prop) (s t : State) : Prop :=
  Relation.ReflTransGen (Change reset der) (control s) (control t)

/-! ### What each change keeps -/

/-- The pc is a multiple of 4. -/
def Control.PcAligned (c : Control) : Prop := c.pc.extractLsb' 0 2 = 0#2

theorem pcAligned_iff (s : State) : PcAligned s ↔ (control s).PcAligned := Iff.rfl

/-- The reserved and read only bits hold nothing. -/
structure Control.ReservedClear (c : Control) : Prop where
  ecr : c.ecr &&& 0x8C18ABF0#32 = 0#32
  der : c.der &&& 0x8C18ABF0#32 = 0#32
  ictrl : c.ictrl &&& 0x000000F0#32 = 0#32
  lctrl1 : c.lctrl1 &&& 0x00000003#32 = 0#32
  lctrl2 : c.lctrl2 &&& 0x000007FC#32 = 0#32
  msr : c.msr.other &&& msrNamedMask = 0#32

theorem reservedClear_iff (s : State) : ReservedClear s ↔ (control s).ReservedClear :=
  ⟨fun ⟨he, hd, hi, h1, h2, hm⟩ => ⟨he, hd, hi, h1, h2, hm⟩, fun ⟨he, hd, hi, h1, h2, hm⟩ => ⟨he, hd, hi, h1, h2, hm⟩⟩

/-- The next instruction of an aligned one is aligned. -/
theorem extractLsb'_add_four {a : Word} (h : a.extractLsb' 0 2 = 0#2) : (a + 4#32).extractLsb' 0 2 = 0#2 := by
  apply BitVec.eq_of_toNat_eq
  have h' := congrArg BitVec.toNat h
  simp only [BitVec.extractLsb'_toNat, Nat.shiftRight_zero, BitVec.toNat_add, BitVec.toNat_ofNat] at h' ⊢
  omega

/-- A bit that a mask excludes stays clear. -/
theorem masked_clear {m r : Word} (h : m &&& r = 0#32) (v : Word) : v &&& m &&& r = 0#32 := by
  rw [BitVec.and_assoc, h, BitVec.and_zero]

/-- No event has a reserved bit. -/
theorem eventMask_reserved (e : Event) : eventMask e &&& 0x8C18ABF0#32 = 0#32 := by
  cases e <;> decide

/-- IFM is not read only. -/
theorem setIfm_readOnly (b : Bool) {w : Word} (h : w &&& 0x000000F0#32 = 0#32) :
    setIfm b w &&& 0x000000F0#32 = 0#32 := by
  have hw : w &&& ~~~ifmMask &&& 0x000000F0#32 = 0#32 := by
    rw [BitVec.and_assoc, BitVec.and_comm (~~~ifmMask), ← BitVec.and_assoc, h, BitVec.zero_and]
  have hb : (if b then ifmMask else 0#32) &&& 0x000000F0#32 = 0#32 := by cases b <;> decide
  rw [setIfm, BitVec.and_or_distrib_right, hw, hb, BitVec.or_zero]

section
variable {reset der : Prop} {c d : Control}

theorem Change.keeps_pcAligned (h : Change reset der c d) (hc : c.PcAligned) : d.PcAligned := by
  cases h with
  | advance => exact extractLsb'_add_four hc
  | jump a => exact BitVec.extractLsb'_append_eq_right
  | reset _ b =>
    have hvec : Config.vecReset.extractLsb' 0 2 = 0#2 := by decide
    exact hvec
  | _ => exact hc

theorem Change.keeps_reservedClear (h : Change reset der c d) (hc : c.ReservedClear) : d.ReservedClear := by
  cases h with
  | advance => exact { hc with }
  | jump a => exact { hc with }
  | setMsr m hm => exact { hc with msr := hm }
  | recordCause e =>
    have he : (c.ecr ||| eventMask e) &&& 0x8C18ABF0#32 = 0#32 := by
      rw [BitVec.and_or_distrib_right, hc.ecr, eventMask_reserved, BitVec.or_zero]
    exact { hc with ecr := he }
  | clearCauses => exact { hc with ecr := BitVec.zero_and }
  | writeDer _ v => exact { hc with der := masked_clear (by decide) v }
  | writeLctrl1 v => exact { hc with lctrl1 := masked_clear (by decide) v }
  | writeLctrl2 v => exact { hc with lctrl2 := masked_clear (by decide) v }
  | writeIctrl v => exact { hc with ictrl := masked_clear (by decide) v }
  | setIfm b => exact { hc with ictrl := setIfm_readOnly b hc.ictrl }
  | reset _ b =>
    have hreset : (control State.reset).ReservedClear := by constructor <;> decide
    exact { hreset with }

/-- Only a reset changes the debug mode enable latch (R42). -/
theorem Change.keeps_dme (h : Change reset der c d) (hr : ¬reset) : d.dme = c.dme := by
  cases h with
  | reset h b => exact absurd h hr
  | _ => rfl

/-- Only a write of DER and a reset change DER. -/
theorem Change.keeps_der (h : Change reset der c d) (hr : ¬reset) (hd : ¬der) : d.der = c.der := by
  cases h with
  | reset h b => exact absurd h hr
  | writeDer h v => exact absurd h hd
  | _ => rfl

end

/-! ### What a sequence of changes keeps -/

section
variable {reset der : Prop} {s t : State}

/-- What each change keeps, a sequence of changes keeps. -/
theorem Changes.keeps {P : Control → Prop} (h : Changes reset der s t)
    (hP : ∀ {c d}, Change reset der c d → P c → P d) (hs : P (control s)) : P (control t) := by
  have key : ∀ {d}, Relation.ReflTransGen (Change reset der) (control s) d → P d := fun hd => by
    induction hd with
    | refl => exact hs
    | tail _ hstep ih => exact hP hstep ih
  exact key h

theorem Changes.keeps_pcAligned (h : Changes reset der s t) (hs : PcAligned s) : PcAligned t :=
  (pcAligned_iff t).mpr (h.keeps Change.keeps_pcAligned ((pcAligned_iff s).mp hs))

theorem Changes.keeps_reservedClear (h : Changes reset der s t) (hs : ReservedClear s) : ReservedClear t :=
  (reservedClear_iff t).mpr (h.keeps Change.keeps_reservedClear ((reservedClear_iff s).mp hs))

theorem Changes.keeps_dme (h : Changes reset der s t) (hr : ¬reset) : t.mode.dme = s.mode.dme :=
  h.keeps (P := fun c => c.dme = s.mode.dme) (fun hstep hc => (hstep.keeps_dme hr).trans hc) rfl

theorem Changes.keeps_der (h : Changes reset der s t) (hr : ¬reset) (hd : ¬der) : t.dev.der = s.dev.der :=
  h.keeps (P := fun c => c.der = s.dev.der) (fun hstep hc => (hstep.keeps_der hr hd).trans hc) rfl

end

/-! ### Composing changes -/

section
variable {reset der : Prop} {s t u : State}

theorem Changes.of_eq (h : control t = control s) : Changes reset der s t := by
  rw [Changes, h]

/-- One change, and what follows it. -/
theorem Changes.head {d : Control} (h : Change reset der (control s) d) (ht : control t = d)
    (hu : Changes reset der t u) : Changes reset der s u :=
  Relation.ReflTransGen.head (ht ▸ h) hu

theorem Changes.one {d : Control} (h : Change reset der (control s) d) (ht : control t = d) : Changes reset der s t :=
  .head h ht (.of_eq rfl)

theorem Changes.trans (h : Changes reset der s t) (h' : Changes reset der t u) : Changes reset der s u :=
  Relation.ReflTransGen.trans h h'

/-- What leaves the control state alone, after a sequence of changes. -/
theorem Changes.quiet (h : Changes reset der s t) (hu : control u = control t) : Changes reset der s u :=
  h.trans (.of_eq hu)

/-- What leaves the control state alone, before a sequence of changes. -/
theorem Changes.after (h : Changes reset der t u) (ht : control t = control s) : Changes reset der s u :=
  (Changes.of_eq ht).trans h

end

/-! ### Completing an instruction -/

section
variable {reset der : Prop}

theorem changes_completeSequential (s : State) : Changes reset der s (completeSequential s) :=
  .one .advance (by simp [control])

theorem changes_completeMarked (s : State) : Changes reset der s (completeMarked s) :=
  .one .advance (by simp [control])

theorem changes_completeMaybeMarked (s : State) : Changes reset der s (completeMaybeMarked s) :=
  .one .advance (by simp [control])

theorem changes_mtsprComplete (n : Spr) (s : State) : Changes reset der s (mtsprComplete n s) := by
  rcases mtsprComplete_cases n s with h | h <;> rw [h]
  · exact changes_completeSequential s
  · exact changes_completeMaybeMarked s

/-! ### Taking an exception -/

/-- No bit is held both in a mask and outside it. -/
theorem and_not_and_self (w m : Word) : w &&& ~~~m &&& m = 0#32 := by
  rw [BitVec.and_assoc, BitVec.and_comm (~~~m), BitVec.and_not_self]
  exact BitVec.and_zero

theorem changes_recordCause (e : Event) (s : State) : Changes reset der s (recordCause e s) :=
  .one (.recordCause e) rfl

theorem changes_recordInDebug (e : Event) (s : State) : Changes reset der s (recordInDebug e s) :=
  .one (.recordCause e) rfl

theorem changes_markExcepted {s t : State} (h : Changes reset der s t) : Changes reset der s (markExcepted t) :=
  h.quiet rfl

/-- A handler's address is word aligned. -/
theorem changes_regularException (e : Event) (a : Word) (s : State) : Changes reset der s (regularException e a s) := by
  have hm : (msrAfterException e s.cpu.msr).other &&& msrNamedMask = 0#32 := and_not_and_self _ _
  refine .head (t := { s with cpu.msr := msrAfterException e s.cpu.msr }) (.setMsr _ hm) rfl
    (.one (.jump (Config.vectorWord e s.cpu.msr)) ?_)
  simp [control, regularException, vectorOf]

theorem changes_enterDebug (e : Option Event) (a : Word) (s : State) : Changes reset der s (enterDebug e a s) :=
  .one (.setMsr (msrAfterDebugEntry e s.cpu.msr) (and_not_and_self _ _)) rfl

theorem changes_routeEvent (e : Event) (enabled : Bool) (a : Word) (s : State) :
    Changes reset der s (routeEvent e enabled a s) := by
  unfold routeEvent
  split
  · exact changes_enterDebug _ _ s
  · exact changes_regularException _ _ s

/-- Recording several events is recording one after the other. -/
theorem changes_foldl {f : State → Event → State} (hf : ∀ s e, Changes reset der s (f s e)) (es : List Event)
    (s : State) : Changes reset der s (es.foldl f s) := by
  induction es generalizing s with
  | nil => exact .of_eq rfl
  | cons e es ih => exact (hf s e).trans (ih (f s e))

theorem changes_raiseAll (e : Event) (es : List Event) (resume : Word) (s : State) :
    Changes reset der s (raiseAll e es resume s) := by
  unfold raiseAll
  split
  · exact changes_markExcepted (changes_foldl (fun t x => changes_recordInDebug x t) _ s)
  · exact changes_markExcepted
      ((changes_foldl (fun t x => changes_recordCause x t) _ s).trans (changes_routeEvent _ _ _ _))

theorem changes_raise (e : Event) (resume : Word) (s : State) : Changes reset der s (raise e resume s) :=
  changes_raiseAll e [] resume s

theorem changes_raiseMachineCheck (async : Bool) (resume : Word) (s : State) :
    Changes reset der s (raiseMachineCheck async resume s) := by
  rcases raiseMachineCheck_cases async resume s with ⟨_, h⟩ | ⟨_, _, _, h⟩ | ⟨_, _, _, h⟩ | ⟨_, _, _, h⟩ <;> rw [h]
  · exact changes_markExcepted (changes_recordInDebug _ s)
  · exact changes_markExcepted ((changes_recordCause _ s).trans (changes_enterDebug _ _ _))
  · exact changes_markExcepted ((changes_recordCause _ s).trans (changes_regularException _ _ _))
  · exact changes_markExcepted ((changes_recordCause .checkStop s).quiet rfl)

@[simp] theorem control_saveFaultAddress (e : CpuExc) (s : State) : control (saveFaultAddress e s) = control s := by
  cases e <;> rfl

theorem changes_raiseCpuExc (e : CpuExc) (s : State) : Changes reset der s (raiseCpuExc e s) := by
  refine .after ?_ (control_saveFaultAddress e s)
  cases e with
  | machineCheck => exact changes_raiseMachineCheck _ _ _
  | _ => exact changes_raise _ _ _

theorem changes_raiseAsync (e : Event) (s : State) : Changes reset der s (raiseAsync e s) := by
  unfold raiseAsync
  split
  · exact .after (changes_raiseMachineCheck _ _ _) (control_saveFaultAddress _ s)
  · exact changes_raise _ _ s

theorem changes_recordMachineCheck (s : State) : Changes reset der s (recordMachineCheck s) :=
  .after (changes_recordInDebug _ _) (control_saveFaultAddress .machineCheck s)

/-! ### Returning from an exception -/

/-- The address in SRR0 is taken without its two lowest bits (R413). -/
theorem changes_restoreContext (s : State) : Changes reset der s (restoreContext s) := by
  have hm : (msrFromSrr1 s.cpu.srr1 s.cpu.msr).other &&& msrNamedMask = 0#32 := and_not_and_self _ _
  exact .head (t := { s with cpu.msr := msrFromSrr1 s.cpu.srr1 s.cpu.msr }) (.setMsr _ hm) rfl (.one (.jump _) rfl)

@[simp] theorem control_leaveDebug (s : State) : control (leaveDebug s) = control s := by
  simp [control]

theorem changes_returnFromException (s : State) : Changes reset der s (returnFromException s) := by
  have hr : Changes reset der s (restoreContext s) := changes_restoreContext s
  unfold returnFromException
  split
  · have hl := hr.quiet (control_leaveDebug _)
    split
    · exact hl.trans (changes_enterDebug _ _ _)
    · exact hl
  · exact hr.quiet (by simp [control])

/-! ### The instructions of the CPU -/

/-- The CPU executes an `mtspr DER`. -/
def WritesDer (i : Option CpuInstr) : Prop := ∃ rs, i = some (.table (.mtsprDer rs))

theorem changes_writtenState {n : Spr} (hd : n = .der → der) (v : Word) (s : State) :
    Changes reset der s (writtenState n v s) := by
  cases n with
  | der => exact .one (.writeDer (hd rfl) v) rfl
  | lctrl1 => exact .one (.writeLctrl1 v) rfl
  | lctrl2 => exact .one (.writeLctrl2 v) rfl
  | ictrl => exact .one (.writeIctrl v) rfl
  | _ => exact .of_eq (by simp [control, sprWritten])

theorem changes_clearEcrOnRead (s : State) : Changes reset der s (clearEcrOnRead s) := by
  unfold clearEcrOnRead
  split
  · exact .one .clearCauses rfl
  · exact .of_eq rfl

theorem changes_mfspr {n : Spr} {rd : Reg} {s t : State} (h : exec (.mfspr rd n) s = .next t) :
    Changes reset der s t := by
  by_cases hn : n = .dpdr
  · subst hn
    simp only [Instr.mfspr, exec, execMfsprDpdr] at h
    split at h
    · injection h with h; subst h; exact changes_raise _ _ s
    · split at h <;> (injection h with h; subst h; exact .after (changes_completeSequential _) rfl)
  · obtain ⟨v, k, he⟩ := exec_mfspr hn rd s
    rw [he] at h
    split at h <;> (injection h with h; subst h)
    · exact changes_raise _ _ s
    · have hread : Changes reset der s (if n = .ecr then clearEcrOnRead s else s) := by
        split
        · exact changes_clearEcrOnRead s
        · exact .of_eq rfl
      exact hread.trans (.after (changes_completeSequential _) rfl)

theorem changes_mtspr {n : Spr} {rs : Reg} {s t : State} (hd : n = .der → der) (h : exec (.mtspr rs n) s = .next t) :
    Changes reset der s t := by
  rw [exec_mtspr] at h
  split at h
  · injection h with h; subst h; exact changes_raise _ _ s
  · split at h <;> (injection h with h; subst h)
    · exact changes_mtsprComplete n s
    · exact (changes_writtenState hd _ s).trans (changes_mtsprComplete n _)

theorem changes_rfi {s t : State} (h : exec .rfi s = .next t) : Changes reset der s t := by
  simp only [exec, execRfi] at h
  split at h <;> (injection h with h; subst h)
  · exact changes_raise _ _ s
  · exact changes_returnFromException s

theorem changes_mtmsr {rs : Reg} {s t : State} (h : exec (.mtmsr rs) s = .next t) : Changes reset der s t := by
  have hm : (msrOfWord (readGpr rs s)).other &&& msrNamedMask = 0#32 := and_not_and_self _ _
  simp only [exec, execMtmsr] at h
  split at h
  · injection h with h; subst h; exact changes_raise _ _ s
  · split at h
    · cases h
    · injection h with h; subst h; exact .head (.setMsr _ hm) rfl (changes_completeMarked _)

/-- A row of the table that a CPU word decodes to. -/
theorem changes_exec_word {w : Word} {j : Instr} {s t : State} (hj : decodeWord w = .ok j)
    (hd : WritesDer (some (.table j)) → der) (h : exec j s = .next t) : Changes reset der s t := by
  rcases decodeWord_cases hj with ⟨n, r, rfl⟩ | ⟨n, r, rfl⟩ | ⟨r, rfl⟩ | rfl | rfl | rfl | ⟨rs, d, ra, rfl⟩
  · exact changes_mfspr h
  · exact changes_mtspr (fun hn => hd ⟨r, by rw [hn]; rfl⟩) h
  · exact changes_mtmsr h
  · injection h with h; subst h; exact .after (changes_completeSequential _) rfl
  · exact changes_rfi h
  · injection h with h; subst h; exact changes_completeMarked s
  · injection h with h; subst h; exact .after (changes_completeSequential _) rfl

@[simp] theorem control_writeSave (n : SaveReg) (v : Word) (s : State) : control (writeSave n v s) = control s := by
  cases n <;> rfl

@[simp] theorem control_drawSave (n : SaveReg) (s : State) : control (drawSave n s) = control s := by
  cases n <;> rfl

theorem changes_moveException (draw : State → State) (hdraw : ∀ u, control (draw u) = control u) (s : State) :
    Changes reset der s (moveException draw s) := by
  have hp : Changes reset der s (programException s) := changes_raise _ _ s
  unfold moveException
  split
  · exact hp.quiet (hdraw _)
  · exact hp

/-- What the CPU executes for a word. -/
theorem changes_execCpu {w : Word} {i : CpuInstr} {s t : State} (hi : decodeCpu w = some i)
    (hd : WritesDer (some i) → der) (h : execCpu i s = .next t) : Changes reset der s t := by
  rcases execCpu_next h with ⟨j, rfl, hj⟩ | ⟨rd, n, rfl, rfl⟩ | ⟨n, rs, rfl, rfl⟩
  · rcases decodeCpu_cases hi with ⟨j', hw, hjj⟩ | ⟨_, _, hne⟩ | ⟨_, _, hne⟩
    · injection hjj with hjj; subst hjj; exact changes_exec_word hw hd hj
    · cases hne
    · cases hne
  · split
    · exact changes_moveException (fun u => writeGpr rd (freeWord 0 u) u) (fun _ => rfl) s
    · exact .after (changes_completeSequential _) rfl
  · split
    · exact changes_moveException _ (control_drawSave n) s
    · exact .after (changes_completeSequential _) (control_writeSave n _ s)

/-! ### The destination of an instruction that excepts in debug mode -/

theorem changes_drawSpr {n : Spr} (hd : n = .der → der) (s : State) : Changes reset der s (drawSpr n s) := by
  cases n with
  | der => exact .one (.writeDer (hd rfl) _) rfl
  | lctrl1 => exact .one (.writeLctrl1 _) rfl
  | lctrl2 => exact .one (.writeLctrl2 _) rfl
  | ictrl => exact .one (.writeIctrl _) rfl
  | _ => exact .of_eq rfl

/-- Only of an `mtspr DER` is DER the destination. -/
theorem writesDer_of_destinationOf {i : Option CpuInstr} (h : destinationOf i = .spr .der) : WritesDer i := by
  cases i with
  | none => cases h
  | some i =>
    cases i with
    | table j => 
      cases j with
      | mtsprDer rs => exact ⟨rs, rfl⟩
      | _ => simp [destinationOf, tableDestination] at h
    | mfsprSave rd n => cases h
    | mtsprSave n rs => cases h

theorem changes_drawDestination {i : Option CpuInstr} (hd : WritesDer i → der) (s0 s : State) :
    Changes reset der s (drawDestination i s0 s) := by
  unfold drawDestination
  cases hdest : destinationOf i with
  | nothing => exact .of_eq rfl
  | gpr rd => exact .of_eq rfl
  | spr n => exact (changes_drawSpr (fun hn => hd (writesDer_of_destinationOf (hn ▸ hdest))) s).quiet rfl
  | save n => exact .of_eq (control_drawSave n s)
  | store ra d => exact .of_eq rfl
  | unknown => exact .of_eq (by simp only [drawAt, drawUnknown, spend, control])

/-! ### The CPU outside debug mode -/

theorem changes_settleIfm (i : Option CpuInstr) (s t : State) : Changes reset der t (settleIfm i s t) := by
  unfold settleIfm
  split
  · exact .one (.setIfm _) rfl
  · exact .of_eq rfl

theorem changes_passBreak (s : State) : Changes reset der s (passBreak s) := by
  unfold passBreak
  split
  · exact .one (.setIfm false) rfl
  · exact .of_eq rfl

theorem changes_takeInstrBreak (i : Option CpuInstr) (s : State) : Changes reset der s (takeInstrBreak i s) :=
  .after ((changes_settleIfm i s _).trans (changes_raise _ _ _)) rfl

theorem changes_raiseAfter (brk : Option Word) (trace : Bool) (t : State) :
    Changes reset der t (raiseAfter brk trace t) := by
  cases brk <;> cases trace
  case none.false => exact .of_eq rfl
  case none.true => exact changes_raise _ _ t
  case some.false => exact .after (changes_raise _ _ _) rfl
  case some.true => exact .after (changes_raiseAll _ _ _ _) rfl

theorem changes_retire (i : CpuInstr) (s t : State) : Changes reset der t (retire i s t) := by
  unfold retire
  split
  · exact .of_eq rfl
  · exact .after (changes_raiseAfter _ _ (reportRetired i s t (watched s t))) rfl

@[simp] theorem control_finish (s t : State) : control (finish s t) = control t := by
  simp [control]

/-- The step of the fetched instruction; of an instruction that section 21 does not give there is no word. -/
theorem changes_runFetched {i : Option CpuInstr} {s t : State} (hi : ∀ j, i = some j → ∃ w, decodeCpu w = some j)
    (hd : WritesDer i → der) (h : runFetched i s = .next t) : Changes reset der s t := by
  rcases runFetched_next h with ⟨_, rfl⟩ | ⟨_, e, _, rfl⟩ | ⟨_, _, j, u, rfl, hu, rfl⟩
  · exact (changes_takeInstrBreak i s).quiet (control_finish _ _)
  · have he : Changes reset der s (raiseCpuExc e { passBreak s with ext.cpuExc := none }) :=
      (changes_passBreak s).trans (.after (changes_raiseCpuExc e _) rfl)
    exact (he.trans (changes_settleIfm i s _)).quiet (control_finish _ _)
  · obtain ⟨w, hw⟩ := hi j rfl
    have hexec : Changes reset der s u := (changes_passBreak s).trans (changes_execCpu hw hd hu)
    exact (hexec.trans ((changes_settleIfm _ s u).trans (changes_retire j s _))).quiet (control_finish _ _)

theorem changes_takeAsync (e : Event) (s : State) : Changes reset der s (takeAsync e s) :=
  Changes.quiet (.after (changes_raiseAsync e { acceptAsync e s with trace.pins := WatchPins.quiet }) rfl) rfl

theorem changes_runStep {s t : State} (hd : ∀ w, memReadWord s.cpu.pc s.mem = some w → WritesDer (decodeCpu w) → der)
    (h : runStep s = .next t) : Changes reset der s t := by
  rcases runStep_next h with ⟨e, es, _, rfl⟩ | ⟨_, w, hw, hrun⟩ | ⟨_, _, _, hrun⟩
  · exact changes_takeAsync _ s
  · exact .after (changes_runFetched (fun _ hj => ⟨w, hj⟩) (hd w hw) hrun) rfl
  · refine .after (changes_runFetched (fun _ hj => by cases hj) ?_ hrun) rfl
    rintro ⟨_, hnone⟩
    cases hnone

/-! ### The CPU in debug mode -/

@[simp] theorem control_fetchFromPort (s : State) : control (fetchFromPort s) = control s := by
  simp [control]

@[simp] theorem control_finishDebug (s t : State) : control (finishDebug s t) = control t :=
  (control_fetchFromPort _).trans (control_finish s t)

theorem changes_traceInDebug {i : CpuInstr} (hd : WritesDer (some i) → der) (s t : State) :
    Changes reset der t (traceInDebug i s t) := by
  rcases traceInDebug_cases i s t with h | ⟨_, _, _, _, h⟩ <;> rw [h]
  · exact .of_eq rfl
  · exact (changes_recordInDebug .trace t).trans (.after (changes_drawDestination hd s _) rfl)

theorem changes_debugStep {s t : State} (hd : ∀ w, s.cpu.dpir = some w → WritesDer (decodeCpu w) → der)
    (h : debugStep s = .next t) : Changes reset der s t := by
  rcases debugStep_next h with ⟨_, rfl⟩ | ⟨_, _, rfl⟩ | ⟨_, _, _, rfl⟩ | ⟨_, _, w, e, hw, _, rfl⟩ |
    ⟨_, _, w, i, u, hw, _, hi, hu, rfl⟩
  · exact (changes_recordInDebug .nmi s).quiet rfl
  · exact (changes_recordMachineCheck s).quiet rfl
  · exact .of_eq (control_fetchFromPort s)
  · have hexc := changes_raiseCpuExc (reset := reset) (der := der) e { s with ext.cpuExc := none, cpu.dpir := none }
    exact Changes.quiet (.after (hexc.trans (changes_drawDestination (hd w hw) _ _)) rfl) (control_finishDebug _ _)
  · have hd' : WritesDer (some i) → der := hi ▸ hd w hw
    have hexec : Changes reset der s u := .after (changes_execCpu hi hd' hu) rfl
    exact (hexec.trans (changes_traceInDebug hd' s u)).quiet (control_finishDebug _ _)

/-! ### The transmissions -/

theorem changes_dpdrBusError (rd : Reg) (s : State) : Changes reset der s (dpdrBusError rd s) := by
  have hbit : ∃ e, busErrorBit 1 s = eventMask e := by
    unfold busErrorBit
    split
    · exact ⟨_, rfl⟩
    · exact ⟨_, rfl⟩
  obtain ⟨e, he⟩ := hbit
  refine .one (.recordCause e) ((control_fetchFromPort _).trans ?_)
  rw [← he]
  rfl

theorem changes_instrEffect (w : Word) (s : State) : Changes reset der s (instrEffect w s) := by
  unfold instrEffect
  split
  · split
    · exact .of_eq rfl
    · exact changes_dpdrBusError _ s
    · exact .of_eq rfl
  · exact .of_eq rfl

theorem changes_completeRead (rd : Reg) (v : Word) (s : State) : Changes reset der s (completeRead rd v s) := by
  rcases completeRead_cases rd v s with h | ⟨_, h⟩ <;> rw [h]
  · exact .of_eq rfl
  · exact (changes_recordInDebug .trace s).quiet rfl

theorem changes_dataEffect (v : Word) (s : State) : Changes reset der s (dataEffect v s) := by
  unfold dataEffect
  split
  · split
    · exact .of_eq rfl
    · next rd _ =>
      have hend : control (endDownload (completeRead rd v s)) = control (completeRead rd v s) := by
        unfold endDownload; split <;> rfl
      exact (changes_completeRead rd v s).quiet ((control_fetchFromPort _).trans hend)
    · exact .of_eq rfl
  · exact .of_eq rfl

theorem control_tecrEffect (l : TecrLayout) (d : BitVec 7) (s : State) : control (tecrEffect l d s) = control s := by
  unfold tecrEffect
  dsimp only
  split
  · rfl
  · simp [control]

theorem control_startDownloadEffect (s : State) : control (startDownloadEffect s) = control s := by
  unfold startDownloadEffect supplyWaiting
  split
  · split
    · exact control_fetchFromPort _
    · rfl
  · rfl

theorem control_endDownloadEffect (s : State) : control (endDownloadEffect s) = control s := by
  unfold endDownloadEffect; split <;> rfl

/-- A reset gives the control registers the values of `State.reset`, and DME the sampled level (R42, R521); with DSCK
still held the DPI cause is recorded and debug mode entered (R524). -/
theorem changes_resetMachine (hr : reset) (k : ResetKind) (s : State) : Changes reset der s (resetMachine k s) := by
  have h : Changes reset der s (resetValues s) := .one (.reset hr s.ext.pins.dsckEnable) rfl
  unfold resetMachine
  generalize resetValues s = r at h ⊢
  dsimp only
  split
  · exact (h.trans ((changes_recordCause .devPortInt r).trans (changes_enterDebug _ r.cpu.srr0 _))).quiet rfl
  · exact h

@[simp] theorem control_exchange (f : Frame) (s : State) : control (exchange f s) = control s := by
  simp [control]

theorem changes_transmit {f : Frame} {e : State → State} {s t : State} (h : transmit f e s = .next t)
    (he : ∀ u, Changes reset der u (e u)) : Changes reset der s t := by
  obtain ⟨_, rfl⟩ := transmit_eq_next.mp h
  split
  · exact .after (he _) (control_exchange f s)
  · exact .of_eq (control_exchange f s)

/-- The transmission is a reset command. -/
def IsResetCommand (i : Instr) : Prop := ∃ x, i = .cmdHreset x ∨ i = .cmdSreset x

/-- Every transmission: only a reset command resets, and a command without a function does the exchange alone. -/
theorem changes_transmission {i : Instr} {s t : State} (hi : isTransmission i = true) (hr : IsResetCommand i → reset)
    (h : exec i s = .next t) : Changes reset der s t := by
  cases i with
  | instr w => exact changes_transmit h (changes_instrEffect w)
  | data v => exact changes_transmit h (changes_dataEffect v)
  | tecr d => exact changes_transmit h (fun u => .of_eq (control_tecrEffect _ d u))
  | cmdHreset x => exact changes_transmit h (changes_resetMachine (hr ⟨x, .inl rfl⟩) .hard)
  | cmdSreset x => exact changes_transmit h (changes_resetMachine (hr ⟨x, .inr rfl⟩) .soft)
  | cmdStartDownload => exact changes_transmit h (fun u => .of_eq (control_startDownloadEffect u))
  | cmdEndDownload => exact changes_transmit h (fun u => .of_eq (control_endDownloadEffect u))
  | cmdBrk n m => exact changes_transmit (e := brkEffect n m) h (fun _ => .of_eq rfl)
  | _ => first
    | (simp [isTransmission, encode] at hi; done)
    | exact changes_transmit (e := fun u => u) h (fun _ => .of_eq rfl)

end

/-! ### The step -/

/-- The word the CPU executes, delivered by the port in debug mode or stored at the pc outside it, is an
`mtspr DER`. -/
def RunsMtsprDer (s : State) : Prop :=
  ∃ (w : Word) (rs : Reg), decodeWord w = .ok (.mtsprDer rs) ∧
    ((s.mode.dm = true ∧ s.cpu.dpir = some w) ∨ (s.mode.dm = false ∧ memReadWord s.cpu.pc s.mem = some w))

theorem decodeWord_of_writesDer {w : Word} (h : WritesDer (decodeCpu w)) : ∃ rs, decodeWord w = .ok (.mtsprDer rs) := by
  obtain ⟨rs, hrs⟩ := h
  rcases decodeCpu_cases hrs with ⟨j, hj, hjj⟩ | ⟨_, _, hne⟩ | ⟨_, _, hne⟩
  · injection hjj with hjj; exact ⟨rs, hjj ▸ hj⟩
  · cases hne
  · cases hne

theorem changes_cpuStep {reset : Prop} {s t : State} (h : cpuStep s = .next t) :
    Changes reset (RunsMtsprDer s) s t := by
  obtain ⟨_, _, ⟨hdm, hstep⟩ | ⟨hdm, hstep⟩⟩ := cpuStep_next h
  · refine changes_debugStep (fun w hw hwrites => ?_) hstep
    obtain ⟨rs, hrs⟩ := decodeWord_of_writesDer hwrites
    exact ⟨w, rs, hrs, .inl ⟨hdm, hw⟩⟩
  · refine changes_runStep (fun w hw hwrites => ?_) hstep
    obtain ⟨rs, hrs⟩ := decodeWord_of_writesDer hwrites
    exact ⟨w, rs, hrs, .inr ⟨hdm, hw⟩⟩

theorem changes_lineChange {reset der : Prop} {s t : State} (h : LineChange s t) : Changes reset der s t := by
  obtain ⟨x, rfl | ⟨_, rfl | rfl⟩⟩ := h
  · exact .of_eq rfl
  · exact .after (changes_recordInDebug .nmi _) rfl
  · exact .after (changes_recordMachineCheck _) rfl

theorem resetNext_of_command {s : State} {f : Frame} {rest : List Input} {i : Instr}
    (hin : s.ext.inputs = .frame f :: rest) (hdec : decode (frameCode f) = .ok i) (hi : IsResetCommand i) :
    ResetNext s := by
  obtain ⟨x, rfl | rfl⟩ := hi <;> simp [ResetNext, hin, hdec]

/-- What a step does to the control state: it resets only where a reset comes next, and it writes DER only where an
`mtspr DER` is executed. -/
theorem step_changes {s t : State} (h : step s = .next t) : Changes (ResetNext s) (RunsMtsprDer s) s t := by
  rcases step_next h with hcpu | ⟨rest, _, hcpu⟩ | ⟨f, rest, i, hin, _, hdec, hexec⟩ | hline | ⟨k, rest, hin, rfl⟩
  · exact changes_cpuStep hcpu
  · exact .after (changes_cpuStep (s := { s with ext.inputs := rest }) hcpu) rfl
  · exact .after (changes_transmission (decode_frame_transmission hdec) (resetNext_of_command hin hdec) hexec) rfl
  · exact changes_lineChange hline
  · have hr : ResetNext s := by simp [ResetNext, hin]
    exact .after (changes_resetMachine hr k _) rfl

/-! ### The obligations about steps -/

/-- Settles O8: the pc advances by 4 or becomes a word address, and the reset vector is aligned. -/
theorem stepKeepsPcAligned : Obligations.StepKeepsPcAligned :=
  fun _ _ hs h => (step_changes h).keeps_pcAligned hs

/-- Settles O10: every value stored in a control register has been masked. -/
theorem stepKeepsReservedClear : Obligations.StepKeepsReservedClear :=
  fun _ _ hs h => (step_changes h).keeps_reservedClear hs

theorem resetMachine_dme (k : ResetKind) (s : State) : (resetMachine k s).mode.dme = s.ext.pins.dsckEnable := by
  unfold resetMachine
  dsimp only
  split <;> rfl

/-- Settles O12: a reset is the only change of the latch. -/
theorem onlyResetChangesDebugModeEnable : Obligations.OnlyResetChangesDebugModeEnable :=
  ⟨fun _ _ hr h => (step_changes h).keeps_dme hr, resetMachine_dme⟩

/-- Settles O14: the write of DER is the only change of DER but for a reset. -/
theorem derChangedOnlyByMtsprOrReset : Obligations.DerChangedOnlyByMtsprOrReset := by
  intro s t hr h hne
  by_contra hno
  exact hne ((step_changes h).keeps_der hr hno)

/-! ### Events in debug mode -/

/-- Settles O37: in debug mode an event is recorded, and recording sets the two bits alone. -/
theorem eventMasksAndRecordingInDebugMode : Obligations.EventMasksAndRecordingInDebugMode := by
  refine ⟨rfl, rfl, rfl, rfl, rfl, rfl, rfl, rfl, rfl, rfl, rfl, rfl, rfl, rfl, rfl, rfl, rfl, rfl, ?_⟩
  intro e resume s hdm
  rw [raise_inDebug hdm]
  have hgpr : SameGprs s (markExcepted (recordInDebug e s)) := fun q => by simp
  exact ⟨rfl, rfl, rfl, ⟨rfl, rfl, rfl, rfl, rfl⟩, rfl, hgpr, fun _ => rfl⟩

/-! ### `mfspr` of ECR and DPDR -/

/-- Free reserved bits leave the defined bits as they are stored. -/
theorem withReserved_defined (m v free : Word) : withReserved (~~~m) v free &&& m = v &&& m := by
  have hfree : free &&& ~~~m &&& m = 0#32 := and_not_and_self free m
  rw [withReserved, BitVec.not_not, BitVec.and_or_distrib_right, hfree, BitVec.or_zero, BitVec.and_assoc,
    BitVec.and_self]

theorem clearEcrOnRead_ecr (s : State) :
    (clearEcrOnRead s).dev.ecr = if s.mode.dme = false ∨ s.mode.dm = true then 0#32 else s.dev.ecr := by
  unfold clearEcrOnRead
  cases s.mode.dme <;> cases s.mode.dm <;> rfl

/-- A performed `mfspr ECR` (R400). -/
theorem exec_mfsprEcr (rd : Reg) {s : State} (hp : s.cpu.msr.pr = false) :
    exec (.mfsprEcr rd) s = .next (completeSequential
      (writeGpr rd (withReserved (~~~causeMask) s.dev.ecr (freeWord 0 s)) (spend 1 (clearEcrOnRead s)))) := by
  simp [exec, execMfsprEcr, mfsprOp, hp, readReserved]

theorem mfsprEcr_reads_and_clears (rd : Reg) (s : State) (hp : s.cpu.msr.pr = false) :
    ∃ t, exec (.mfsprEcr rd) s = .next t ∧ readGpr rd t &&& 0x73E7540F#32 = s.dev.ecr &&& 0x73E7540F#32 ∧
      ((s.mode.dme = false ∨ s.mode.dm = true) → t.dev.ecr = 0#32) ∧
      ((s.mode.dme = true ∧ s.mode.dm = false) → t.dev.ecr = s.dev.ecr) := by
  refine ⟨_, exec_mfsprEcr rd hp, ?_, fun h => ?_, fun ⟨hdme, hdm⟩ => ?_⟩
  · rw [readGpr_completeSequential, readGpr_writeGpr_same]
    exact withReserved_defined causeMask _ _
  · simp [clearEcrOnRead_ecr, h]
  · simp [clearEcrOnRead_ecr, hdme, hdm]

/-- The ECR ignores writes, performed or not (R400). -/
theorem mtsprEcr_ignored (rs : Reg) (s : State) (hp : s.cpu.msr.pr = false) :
    ∃ t, exec (.mtsprEcr rs) s = .next t ∧ t.dev.ecr = s.dev.ecr := by
  have h := exec_mtspr .ecr rs s
  simp only [Instr.mtspr, hp, Bool.false_eq_true, if_false] at h
  split at h
  · exact ⟨_, h, by simp⟩
  · exact ⟨_, h, by simp [sprWritten]⟩

/-- In debug mode an `mfspr DPDR` leaves the CPU waiting for data (R352). -/
theorem exec_mfsprDpdr_inDebug (rd : Reg) {s : State} (hp : s.cpu.msr.pr = false) (hd : s.mode.dm = true) :
    exec (.mfsprDpdr rd) s = .next (completeSequential { s with cpu.wait := .data rd }) := by
  simp [exec, execMfsprDpdr, hp, hd]

/-- Outside debug mode it reads an indeterminate value (R357). -/
theorem exec_mfsprDpdr_outside (rd : Reg) {s : State} (hp : s.cpu.msr.pr = false) (hd : s.mode.dm = false) :
    exec (.mfsprDpdr rd) s = .next (completeSequential (writeGpr rd (freeWord 0 s) (spend 1 s))) := by
  simp [exec, execMfsprDpdr, hp, hd]

theorem mfsprDpdr_waits_or_reads (rd : Reg) (s : State) (hp : s.cpu.msr.pr = false) :
    ∃ t, exec (.mfsprDpdr rd) s = .next t ∧ t.cpu.pc = s.cpu.pc + 4#32 ∧ t.dev = s.dev ∧ t.port = s.port ∧
      t.mode = s.mode ∧ t.ext = s.ext ∧ t.cpu.dpir = s.cpu.dpir ∧ t.cpu.checkStop = s.cpu.checkStop ∧
      SameExceptionRegs s t ∧ SameMemory s t ∧ Reported 0b001#3 s t ∧
      (if s.mode.dm then t.cpu.wait = .data rd ∧ SameGprs s t
       else t.cpu.wait = s.cpu.wait ∧ SameGprsBut rd s t) := by
  cases hd : s.mode.dm with
  | true =>
    refine ⟨_, exec_mfsprDpdr_inDebug rd hp hd, ?_⟩
    simp [SameExceptionRegs, SameMemory, Reported, SameGprs, completeSequential_events, hd, readGpr]
  | false =>
    refine ⟨_, exec_mfsprDpdr_outside rd hp hd, ?_⟩
    have hgprs : SameGprsBut rd s (completeSequential (writeGpr rd (freeWord 0 s) (spend 1 s))) := fun q hq => by
      simp [readGpr_writeGpr_other hq]
    simp [SameExceptionRegs, SameMemory, Reported, completeSequential_events, hd, hgprs]

/-- Settles O17: each access by its own lemma. -/
theorem mfsprEcrAndDpdr : Obligations.MfsprEcrAndDpdr :=
  ⟨⟨mfsprEcr_reads_and_clears, mtsprEcr_ignored⟩, mfsprDpdr_waits_or_reads⟩

end Sys2Proof.Machine
end

section
/-! SUPPORT and PROOF. The memory over a step: every operation leaves it alone but for two, `stwu` and the drawing of the
destination of an instruction that excepts in debug mode (R460), and both keep the canonical form (log 8). -/

namespace Sys2Proof.Machine

/-! ### Operations that leave the memory alone -/

@[simp] theorem programException_mem (s : State) : (programException s).mem = s.mem := by
  simp [programException]

@[simp] theorem raiseMachineCheck_mem (async : Bool) (resume : Word) (s : State) :
    (raiseMachineCheck async resume s).mem = s.mem := by
  rcases raiseMachineCheck_cases async resume s with ⟨_, h⟩ | ⟨_, _, _, h⟩ | ⟨_, _, _, h⟩ | ⟨_, _, _, h⟩ <;> simp [h]

@[simp] theorem saveFaultAddress_mem (e : CpuExc) (s : State) : (saveFaultAddress e s).mem = s.mem := by
  cases e <;> rfl

@[simp] theorem raiseCpuExc_mem (e : CpuExc) (s : State) : (raiseCpuExc e s).mem = s.mem := by
  cases e <;> simp [raiseCpuExc]

@[simp] theorem raiseAsync_mem (e : Event) (s : State) : (raiseAsync e s).mem = s.mem := by
  unfold raiseAsync
  split <;> simp

@[simp] theorem takeAsync_mem (e : Event) (s : State) : (takeAsync e s).mem = s.mem := by
  simp [takeAsync, acceptAsync]

@[simp] theorem recordMachineCheck_mem (s : State) : (recordMachineCheck s).mem = s.mem := by
  simp [recordMachineCheck]

@[simp] theorem returnFromException_mem (s : State) : (returnFromException s).mem = s.mem := by
  unfold returnFromException
  split
  · split <;> simp
  · simp

@[simp] theorem settleIfm_mem (i : Option CpuInstr) (s t : State) : (settleIfm i s t).mem = t.mem := by
  unfold settleIfm
  split <;> rfl

@[simp] theorem takeInstrBreak_mem (i : Option CpuInstr) (s : State) : (takeInstrBreak i s).mem = s.mem := by
  simp [takeInstrBreak]

@[simp] theorem raiseAfter_mem (brk : Option Word) (trace : Bool) (t : State) :
    (raiseAfter brk trace t).mem = t.mem := by
  cases brk <;> cases trace <;> simp [raiseAfter]

@[simp] theorem retire_mem (i : CpuInstr) (s t : State) : (retire i s t).mem = t.mem := by
  unfold retire
  split
  · rfl
  · simp [reportRetired]

@[simp] theorem finishDebug_mem (s t : State) : (finishDebug s t).mem = t.mem := by
  simp [finishDebug]

@[simp] theorem writeSave_mem (n : SaveReg) (v : Word) (s : State) : (writeSave n v s).mem = s.mem := by
  cases n <;> rfl

@[simp] theorem drawSave_mem (n : SaveReg) (s : State) : (drawSave n s).mem = s.mem := by
  cases n <;> rfl

theorem moveException_mem {draw : State → State} (hdraw : ∀ u, (draw u).mem = u.mem) (s : State) :
    (moveException draw s).mem = s.mem := by
  unfold moveException
  split <;> simp [hdraw]

/-! ### The transmissions -/

@[simp] theorem dpdrBusError_mem (rd : Reg) (s : State) : (dpdrBusError rd s).mem = s.mem := by
  simp [dpdrBusError]

@[simp] theorem supplyWaiting_mem (s : State) : (supplyWaiting s).mem = s.mem := by
  unfold supplyWaiting
  split <;> simp

@[simp] theorem resetValues_mem (s : State) : (resetValues s).mem = s.mem := by
  unfold resetValues
  rfl

/-- A reset does not affect memory (R521). -/
@[simp] theorem resetMachine_mem (k : ResetKind) (s : State) : (resetMachine k s).mem = s.mem := by
  unfold resetMachine
  dsimp only
  split <;> simp

theorem Effect.mem_eq {e : State → State} (he : Effect e) (s : State) : (e s).mem = s.mem := by
  cases he with
  | nop => rfl
  | instr w =>
    unfold instrEffect
    split
    · split <;> simp
    · simp
  | data v =>
    unfold dataEffect
    split
    · split <;> simp
    · simp
  | tecr l d =>
    simp only [tecrEffect]
    split <;> simp
  | brk n m => simp
  | start =>
    unfold startDownloadEffect
    split <;> simp
  | stop =>
    unfold endDownloadEffect
    split <;> rfl
  | reset k => simp

/-- No transmission reaches the memory: the port's only way there is through the CPU. -/
theorem exec_transmission_mem {i : Instr} {s t : State} (hi : isTransmission i = true) (h : exec i s = .next t) :
    t.mem = s.mem := by
  obtain ⟨f, e, he, hexec⟩ := exec_transmission hi
  rw [hexec] at h
  obtain ⟨_, rfl⟩ := transmit_eq_next.mp h
  split
  · rw [he.mem_eq, exchange_mem]
  · exact exchange_mem f s

/-! ### The instructions of the CPU -/

theorem exec_mfspr_mem {n : Spr} {rd : Reg} {s t : State} (h : exec (.mfspr rd n) s = .next t) : t.mem = s.mem := by
  by_cases hn : n = .dpdr
  · subst hn
    simp only [Instr.mfspr, exec, execMfsprDpdr] at h
    split at h
    · injection h with h; subst h; simp
    · split at h <;> (injection h with h; subst h; simp)
  · obtain ⟨v, k, he⟩ := exec_mfspr hn rd s
    rw [he] at h
    split at h <;> (injection h with h; subst h)
    · simp
    · have hread : (if n = .ecr then clearEcrOnRead s else s).mem = s.mem := by split <;> simp
      simp [hread]

theorem exec_mtspr_mem {n : Spr} {rs : Reg} {s t : State} (h : exec (.mtspr rs n) s = .next t) : t.mem = s.mem := by
  rw [exec_mtspr] at h
  split at h
  · injection h with h; subst h; simp
  · split at h <;> (injection h with h; subst h; simp)

theorem exec_mtmsr_mem {rs : Reg} {s t : State} (h : exec (.mtmsr rs) s = .next t) : t.mem = s.mem := by
  simp only [exec, execMtmsr] at h
  split at h
  · injection h with h; subst h; simp
  · split at h
    · cases h
    · injection h with h; subst h; simp

theorem exec_rfi_mem {s t : State} (h : exec .rfi s = .next t) : t.mem = s.mem := by
  simp only [exec, execRfi] at h
  split at h <;> (injection h with h; subst h; simp)

theorem exec_stwu_mem {rs ra : Reg} {d : Int} {s t : State} (h : exec (.stwu rs d ra) s = .next t) :
    t.mem = memWriteWord (effectiveAddress ra d s) (readGpr rs s) s.mem := by
  injection h with h; subst h; simp

/-- What a row of the table that a CPU word decodes to does to the memory: nothing, or it stores one word. -/
theorem exec_word_mem {w : Word} {j : Instr} {s t : State} (hj : decodeWord w = .ok j) (h : exec j s = .next t) :
    t.mem = s.mem ∨ ∃ a v, t.mem = memWriteWord a v s.mem := by
  rcases decodeWord_cases hj with ⟨n, r, rfl⟩ | ⟨n, r, rfl⟩ | ⟨r, rfl⟩ | rfl | rfl | rfl | ⟨rs, d, ra, rfl⟩
  · exact .inl (exec_mfspr_mem h)
  · exact .inl (exec_mtspr_mem h)
  · exact .inl (exec_mtmsr_mem h)
  · injection h with h; subst h; exact .inl (by simp)
  · exact .inl (exec_rfi_mem h)
  · injection h with h; subst h; exact .inl (by simp)
  · exact .inr ⟨_, _, exec_stwu_mem h⟩

/-- What the CPU executes for a word does the same to the memory: the moves store nothing. -/
theorem execCpu_mem {w : Word} {i : CpuInstr} {s t : State} (hi : decodeCpu w = some i) (h : execCpu i s = .next t) :
    t.mem = s.mem ∨ ∃ a v, t.mem = memWriteWord a v s.mem := by
  rcases execCpu_next h with ⟨j, rfl, hj⟩ | ⟨rd, n, rfl, rfl⟩ | ⟨n, rs, rfl, rfl⟩
  · rcases decodeCpu_cases hi with ⟨j', hw, hjj⟩ | ⟨_, _, hne⟩ | ⟨_, _, hne⟩
    · injection hjj with hjj; subst hjj; exact exec_word_mem hw hj
    · cases hne
    · cases hne
  · left
    split
    · exact moveException_mem (draw := fun u => writeGpr rd (freeWord 0 u) u) (fun _ => rfl) s
    · simp
  · left
    split
    · exact moveException_mem (drawSave_mem n) s
    · simp

/-! ### The canonical form -/

section
variable {s t : State}

theorem MemoryCanonical.of_mem_eq (hs : MemoryCanonical s) (h : t.mem = s.mem) : MemoryCanonical t := by
  rw [MemoryCanonical, h]
  exact hs

theorem MemoryCanonical.after_execCpu {w : Word} {i : CpuInstr} (hs : MemoryCanonical s) (hi : decodeCpu w = some i)
    (h : execCpu i s = .next t) : MemoryCanonical t := by
  rcases execCpu_mem hi h with hmem | ⟨a, v, hmem⟩
  · exact hs.of_mem_eq hmem
  · rw [MemoryCanonical, hmem]
    exact memWriteWord_wf a v hs

/-- Whatever the destination of an excepting instruction is, free bytes are stored one by one (R460, log 33). -/
theorem MemoryCanonical.after_drawDestination (ht : MemoryCanonical t) (i : Option CpuInstr) (s : State) :
    MemoryCanonical (drawDestination i s t) :=
  drawDestination_wf i s ht

theorem MemoryCanonical.after_traceInDebug (ht : MemoryCanonical t) (i : CpuInstr) (s : State) :
    MemoryCanonical (traceInDebug i s t) := by
  rcases traceInDebug_cases i s t with h | ⟨_, _, _, _, h⟩ <;> rw [h]
  · exact ht.of_mem_eq rfl
  · have hrecorded : MemoryCanonical (spend 1 (recordInDebug .trace t)) := ht.of_mem_eq rfl
    exact hrecorded.after_drawDestination (some i) s

/-! ### The step -/

/-- The step of the fetched instruction; of an instruction that section 21 does not give there is no word. -/
theorem MemoryCanonical.after_runFetched {i : Option CpuInstr} (hs : MemoryCanonical s)
    (hi : ∀ j, i = some j → ∃ w, decodeCpu w = some j) (h : runFetched i s = .next t) : MemoryCanonical t := by
  rcases runFetched_next h with ⟨_, rfl⟩ | ⟨_, e, _, rfl⟩ | ⟨_, _, j, u, rfl, hu, rfl⟩
  · exact hs.of_mem_eq (by simp)
  · exact hs.of_mem_eq (by simp)
  · obtain ⟨w, hw⟩ := hi j rfl
    have hpass : MemoryCanonical (passBreak s) := hs.of_mem_eq (passBreak_mem s)
    exact (hpass.after_execCpu hw hu).of_mem_eq (by simp)

theorem MemoryCanonical.after_runStep (hs : MemoryCanonical s) (h : runStep s = .next t) : MemoryCanonical t := by
  have hfetch : MemoryCanonical (fetched s) := hs.of_mem_eq (fetched_mem s)
  rcases runStep_next h with ⟨e, es, _, rfl⟩ | ⟨_, w, _, hrun⟩ | ⟨_, _, _, hrun⟩
  · exact hs.of_mem_eq (takeAsync_mem _ s)
  · exact hfetch.after_runFetched (fun _ hj => ⟨w, hj⟩) hrun
  · exact hfetch.after_runFetched (fun _ hj => by cases hj) hrun

theorem MemoryCanonical.after_debugStep (hs : MemoryCanonical s) (h : debugStep s = .next t) : MemoryCanonical t := by
  rcases debugStep_next h with ⟨_, rfl⟩ | ⟨_, _, rfl⟩ | ⟨_, _, _, rfl⟩ | ⟨_, _, w, e, _, _, rfl⟩ |
    ⟨_, _, w, i, u, _, _, hi, hu, rfl⟩
  · exact hs.of_mem_eq rfl
  · exact hs.of_mem_eq (recordMachineCheck_mem s)
  · exact hs.of_mem_eq (fetchFromPort_mem s)
  · have hexc : MemoryCanonical (raiseCpuExc e { s with ext.cpuExc := none, cpu.dpir := none }) :=
      hs.of_mem_eq (raiseCpuExc_mem e _)
    exact (hexc.after_drawDestination (decodeCpu w) _).of_mem_eq (finishDebug_mem s _)
  · have htaken : MemoryCanonical { s with cpu.dpir := none } := hs.of_mem_eq rfl
    exact ((htaken.after_execCpu hi hu).after_traceInDebug i s).of_mem_eq (finishDebug_mem s _)

theorem MemoryCanonical.after_cpuStep (hs : MemoryCanonical s) (h : cpuStep s = .next t) : MemoryCanonical t := by
  obtain ⟨_, _, ⟨_, hstep⟩ | ⟨_, hstep⟩⟩ := cpuStep_next h
  · exact hs.after_debugStep hstep
  · exact hs.after_runStep hstep

theorem LineChange.mem_eq (h : LineChange s t) : t.mem = s.mem := by
  obtain ⟨x, rfl | ⟨_, rfl | rfl⟩⟩ := h <;> simp

end

/-- Settles O7: a step stores bytes one by one below 2^32, each at its place in the list, or leaves the list alone. -/
theorem stepKeepsMemoryCanonical : Obligations.StepKeepsMemoryCanonical := by
  intro s t hs h
  rcases step_next h with hcpu | ⟨rest, _, hcpu⟩ | ⟨f, rest, i, _, _, hdec, hexec⟩ | hline | ⟨k, rest, _, rfl⟩
  · exact hs.after_cpuStep hcpu
  · have hrun : MemoryCanonical { s with ext.inputs := rest } := hs.of_mem_eq rfl
    exact hrun.after_cpuStep hcpu
  · have hmem := exec_transmission_mem (decode_frame_transmission hdec) hexec
    exact hs.of_mem_eq hmem
  · exact hs.of_mem_eq hline.mem_eq
  · exact hs.of_mem_eq (resetMachine_mem k _)

end Sys2Proof.Machine
end

section
/-! SUPPORT and PROOFS. Decoding and encoding undo each other (30_encoding.md). A CPU word is the join of its fields
(`wordOfFields`) and a frame is its three header bits before its data (`frameHeader`); what the decoders read from these
forms is said once, and both directions go through it. -/

namespace Sys2Proof

/-! ### The fields of a CPU word (R157 to R162) -/

/-- The word with primary opcode `op` and, after it, the bits 6:10, 11:15, 16:20, 21:30 and 31 (R158). -/
def wordOfFields (op : BitVec 6) (r lo hi : BitVec 5) (xo : BitVec 10) (rc : BitVec 1) : Word :=
  op ++ r ++ lo ++ hi ++ xo ++ rc

section
variable (op : BitVec 6) (r lo hi : BitVec 5) (xo : BitVec 10) (rc : BitVec 1)

@[simp] theorem wordOfFields_opcode : (wordOfFields op r lo hi xo rc).extractLsb' 26 6 = op := by
  rw [wordOfFields]
  iterate 4 rw [BitVec.extractLsb'_append_eq_of_le (by decide)]
  exact BitVec.extractLsb'_append_eq_left

@[simp] theorem wordOfFields_bits_6_10 : (wordOfFields op r lo hi xo rc).extractLsb' 21 5 = r := by
  rw [wordOfFields]
  iterate 4 rw [BitVec.extractLsb'_append_eq_of_le (by decide)]
  exact BitVec.extractLsb'_append_eq_right

@[simp] theorem wordOfFields_bits_11_15 : (wordOfFields op r lo hi xo rc).extractLsb' 16 5 = lo := by
  rw [wordOfFields]
  iterate 3 rw [BitVec.extractLsb'_append_eq_of_le (by decide)]
  exact BitVec.extractLsb'_append_eq_right

@[simp] theorem wordOfFields_bits_16_20 : (wordOfFields op r lo hi xo rc).extractLsb' 11 5 = hi := by
  rw [wordOfFields]
  iterate 2 rw [BitVec.extractLsb'_append_eq_of_le (by decide)]
  exact BitVec.extractLsb'_append_eq_right

@[simp] theorem wordOfFields_bits_21_30 : (wordOfFields op r lo hi xo rc).extractLsb' 1 10 = xo := by
  rw [wordOfFields, BitVec.extractLsb'_append_eq_of_le (by decide)]
  exact BitVec.extractLsb'_append_eq_right

@[simp] theorem wordOfFields_bit_31 : (wordOfFields op r lo hi xo rc).extractLsb' 0 1 = rc :=
  BitVec.extractLsb'_append_eq_right

end

/-- A word is the join of the fields read from it. -/
theorem wordOfFields_extractLsb' (w : Word) :
    wordOfFields (w.extractLsb' 26 6) (w.extractLsb' 21 5) (w.extractLsb' 16 5) (w.extractLsb' 11 5)
      (w.extractLsb' 1 10) (w.extractLsb' 0 1) = w := by
  apply BitVec.eq_of_getLsbD_eq
  grind [wordOfFields]

/-- A word is the join of the fields of `stwu` read from it (R162). -/
theorem stwu_fields_extractLsb' (w : Word) :
    w.extractLsb' 26 6 ++ w.extractLsb' 21 5 ++ w.extractLsb' 16 5 ++ w.extractLsb' 0 16 = w := by
  apply BitVec.eq_of_getLsbD_eq
  grind

/-- Primary opcode 31 is decoded by its fields. -/
theorem decodeWord_wordOfFields (r lo hi : BitVec 5) (xo : BitVec 10) (rc : BitVec 1) :
    decodeWord (wordOfFields 31#6 r lo hi xo rc) = decodeOp31 r lo hi xo rc := by
  simp [decodeWord, -BitVec.extractLsb'_toNat]

/-- Primary opcode 37 is `stwu`, whatever its fields hold. -/
theorem decodeWord_stwu (rs ra : Reg) (d : BitVec 16) :
    decodeWord (37#6 ++ rs ++ ra ++ d) = .ok (.stwu rs d.toInt ra) := by
  have hop : (37#6 ++ rs ++ ra ++ d).extractLsb' 26 6 = 37#6 := by
    rw [BitVec.extractLsb'_append_eq_of_le (by decide), BitVec.extractLsb'_append_eq_of_le (by decide)]
    exact BitVec.extractLsb'_append_eq_left
  have hrs : (37#6 ++ rs ++ ra ++ d).extractLsb' 21 5 = rs := by
    rw [BitVec.extractLsb'_append_eq_of_le (by decide), BitVec.extractLsb'_append_eq_of_le (by decide)]
    exact BitVec.extractLsb'_append_eq_right
  have hra : (37#6 ++ rs ++ ra ++ d).extractLsb' 16 5 = ra := by
    rw [BitVec.extractLsb'_append_eq_of_le (by decide)]
    exact BitVec.extractLsb'_append_eq_right
  have hd : (37#6 ++ rs ++ ra ++ d).extractLsb' 0 16 = d := BitVec.extractLsb'_append_eq_right
  rw [decodeWord, hop, hrs, hra, hd]
  rfl

/-! ### SPR numbers (R156, R160) -/

@[simp] theorem Spr.ofNumber_number (n : Spr) : Spr.ofNumber n.number = some n := by cases n <;> rfl

theorem Spr.number_of_ofNumber {k : BitVec 10} {n : Spr} (h : Spr.ofNumber k = some n) : n.number = k := by
  apply BitVec.eq_of_toNat_eq
  unfold Spr.ofNumber at h
  split at h <;> cases h <;> exact Eq.symm ‹k.toNat = _›

theorem SaveReg.number_of_ofNumber {k : BitVec 10} {n : SaveReg} (h : SaveReg.ofNumber k = some n) : n.number = k := by
  apply BitVec.eq_of_toNat_eq
  unfold SaveReg.ofNumber at h
  split at h <;> cases h <;> exact Eq.symm ‹k.toNat = _›

theorem mfsprWord_eq (k : BitVec 10) (r : Reg) :
    mfsprWord k r = wordOfFields 31#6 r (k.extractLsb' 0 5) (k.extractLsb' 5 5) 339#10 0#1 := rfl

/-- The two halves of the SPR number stand swapped in `mfspr` (R158). -/
theorem mfsprWord_append (r lo hi : BitVec 5) : mfsprWord (hi ++ lo) r = wordOfFields 31#6 r lo hi 339#10 0#1 := by
  rw [mfsprWord_eq, BitVec.extractLsb'_append_eq_right, BitVec.extractLsb'_append_eq_left]

theorem mtsprWord_eq (k : BitVec 10) (r : Reg) :
    mtsprWord k r = wordOfFields 31#6 r (k.extractLsb' 0 5) (k.extractLsb' 5 5) 467#10 0#1 := rfl

/-- The two halves of the SPR number stand swapped in `mtspr` (R159). -/
theorem mtsprWord_append (r lo hi : BitVec 5) : mtsprWord (hi ++ lo) r = wordOfFields 31#6 r lo hi 467#10 0#1 := by
  rw [mtsprWord_eq, BitVec.extractLsb'_append_eq_right, BitVec.extractLsb'_append_eq_left]

/-! ### The rows of `mfspr` and `mtspr` -/

theorem encode_mfspr (r : Reg) (n : Spr) : encode (.mfspr r n) = .word (encodeMfspr n r) := by cases n <;> rfl

theorem encode_mtspr (r : Reg) (n : Spr) : encode (.mtspr r n) = .word (encodeMtspr n r) := by cases n <;> rfl

theorem wellFormed_mfspr (r : Reg) (n : Spr) : (Instr.mfspr r n).WellFormed := by cases n <;> rfl

theorem wellFormed_mtspr (r : Reg) (n : Spr) : (Instr.mtspr r n).WellFormed := by cases n <;> rfl

theorem decode_encodeMfspr (n : Spr) (r : Reg) : decode (.word (encodeMfspr n r)) = .ok (.mfspr r n) := by
  rw [decode, encodeMfspr, mfsprWord_eq, decodeWord_wordOfFields]
  simp [decodeOp31, BitVec.extractLsb'_append_extractLsb' (w := 5) (len := 5)]

theorem decode_encodeMtspr (n : Spr) (r : Reg) : decode (.word (encodeMtspr n r)) = .ok (.mtspr r n) := by
  rw [decode, encodeMtspr, mtsprWord_eq, decodeWord_wordOfFields]
  simp [decodeOp31, BitVec.extractLsb'_append_extractLsb' (w := 5) (len := 5)]

/-! ### Frames (R141 to R146) -/

/-- The first three bits of a frame: start, mode, control. -/
def frameHeader (start mode control : Bool) : BitVec 3 :=
  BitVec.ofBool start ++ BitVec.ofBool mode ++ BitVec.ofBool control

/-- Every frame is a header before its data. -/
theorem exists_frameHeader {n : Nat} (b : BitVec (3 + n)) :
    ∃ (start mode control : Bool) (d : BitVec n), b = frameHeader start mode control ++ d := by
  have hheader : ∀ p : BitVec 3, ∃ start mode control, p = frameHeader start mode control := by decide
  obtain ⟨start, mode, control, hp⟩ := hheader (b.extractLsb' n 3)
  exact ⟨start, mode, control, b.extractLsb' 0 n, by rw [← hp, BitVec.extractLsb'_append_extractLsb']⟩

section
variable (start mode control : Bool) {n : Nat} (d : BitVec n)

@[simp] theorem frameHeader_start : (frameHeader start mode control ++ d).getMsbD 0 = start := by
  rw [BitVec.getMsbD_append, if_neg (by decide)]
  revert start mode control; decide

@[simp] theorem frameHeader_mode : (frameHeader start mode control ++ d).getMsbD 1 = mode := by
  rw [BitVec.getMsbD_append, if_neg (by decide)]
  revert start mode control; decide

@[simp] theorem frameHeader_control : (frameHeader start mode control ++ d).getMsbD 2 = control := by
  rw [BitVec.getMsbD_append, if_neg (by decide)]
  revert start mode control; decide

end

theorem decodeDp10_frameHeader (start mode control : Bool) (d : BitVec 7) :
    decodeDp10 (frameHeader start mode control ++ d) =
      if start then if mode then .ok (decodeData7 control d) else .rejected .wrongLength
      else .rejected .noStartBit := by
  rw [decodeDp10, frameHeader_start, frameHeader_mode, frameHeader_control, BitVec.extractLsb'_append_eq_right]

theorem decodeDp35_frameHeader (start mode control : Bool) (v : Word) :
    decodeDp35 (frameHeader start mode control ++ v) =
      if start then if mode then .rejected .wrongLength else if control then .ok (.data v) else .ok (.instr v)
      else .rejected .noStartBit := by
  rw [decodeDp35, frameHeader_start, frameHeader_mode, frameHeader_control, BitVec.extractLsb'_append_eq_right]

/-- A command frame is the header with all bits set before the extended opcode and the major opcode (R144). -/
theorem encodeCommand_eq (ext : BitVec 2) (major : BitVec 5) :
    encodeCommand ext major = .dp10 (frameHeader true true true ++ (ext ++ major)) := by
  revert ext major; decide

theorem decode_encodeCommand (ext : BitVec 2) (major : BitVec 5) :
    decode (encodeCommand ext major) = .ok (decodeCommand ext major) := by
  rw [encodeCommand_eq, decode, decodeDp10_frameHeader, if_pos rfl, if_pos rfl, decodeData7, if_pos rfl,
    BitVec.extractLsb'_append_eq_left, BitVec.extractLsb'_append_eq_right]

/-- Each of the 128 pairs of opcodes is one command, which is encoded with them alone. -/
theorem encode_decodeCommand (ext : BitVec 2) (major : BitVec 5) :
    (decodeCommand ext major).WellFormed ∧ encode (decodeCommand ext major) = encodeCommand ext major := by
  revert ext major; decide

/-! ### Decoding what was encoded -/

/-- The displacement of a well-formed `stwu` survives the 16-bit field (R162). -/
theorem decode_encode_stwu {rs ra : Reg} {d : Int} (h : (Instr.stwu rs d ra).WellFormed) :
    decode (encode (.stwu rs d ra)) = .ok (.stwu rs d ra) := by
  simp only [Instr.WellFormed, Instr.wellFormed, Bool.and_eq_true, decide_eq_true_eq] at h
  obtain ⟨hlow, hhigh⟩ := h
  have hd : (BitVec.ofInt 16 d).toInt = d := BitVec.toInt_ofInt_eq_self (by decide) hlow (by omega)
  rw [encode, decode, decodeWord_stwu, hd]

theorem decode_encode_mtmsr (rs : Reg) : decode (encode (.mtmsr rs)) = .ok (.mtmsr rs) :=
  decodeWord_wordOfFields rs 0#5 0#5 146#10 0#1

theorem decode_encode_cmdBrk (n m : Bool) : decode (encode (.cmdBrk n m)) = .ok (.cmdBrk n m) := by
  cases n <;> cases m <;> exact decode_encodeCommand _ _

theorem decode_encode_cmdReserved0x00011 (x : BitVec 1) :
    decode (encode (.cmdReserved0x00011 x)) = .ok (.cmdReserved0x00011 x) := by
  revert x; decide

/-- Settles O1: a frame by its header, a command by its two opcodes, a CPU word by its fields. -/
theorem decodeEncodeAgree : Obligations.DecodeEncodeAgree := by
  intro i hi
  cases i with
  | instr w => exact decodeDp35_frameHeader true false false w
  | data v => exact decodeDp35_frameHeader true false true v
  | tecr d => exact decodeDp10_frameHeader true true false d
  | cmdEndDownload | cmdStartDownload => exact decode_encodeCommand _ _
  | cmdReserved0x00011 x => exact decode_encode_cmdReserved0x00011 x
  | cmdBrk n m => exact decode_encode_cmdBrk n m
  | cmdNop x | cmdHreset x | cmdSreset x | cmdReserved00100 x | cmdReserved00101 x | cmdReserved00110 x
  | cmdReserved00111 x | cmdReserved01000 x | cmdReserved01001 x | cmdReserved01010 x | cmdReserved01011 x
  | cmdReserved01100 x | cmdReserved01101 x | cmdReserved01110 x | cmdReserved01111 x | cmdReserved10000 x
  | cmdReserved10001 x | cmdReserved10010 x | cmdReserved10011 x | cmdReserved10100 x | cmdReserved10101 x
  | cmdReserved10110 x | cmdReserved10111 x | cmdReserved11000 x | cmdReserved11001 x | cmdReserved11010 x
  | cmdReserved11011 x | cmdReserved11100 x | cmdReserved11101 x | cmdReserved11110 x =>
    exact decode_encodeCommand x _
  | mfsprCmpa r | mfsprCmpb r | mfsprCmpc r | mfsprCmpd r | mfsprEcr r | mfsprDer r | mfsprCounta r | mfsprCountb r
  | mfsprCmpe r | mfsprCmpf r | mfsprCmpg r | mfsprCmph r | mfsprLctrl1 r | mfsprLctrl2 r | mfsprIctrl r | mfsprBar r
  | mfsprDpdr r =>
    exact decode_encodeMfspr _ r
  | mtsprCmpa r | mtsprCmpb r | mtsprCmpc r | mtsprCmpd r | mtsprEcr r | mtsprDer r | mtsprCounta r | mtsprCountb r
  | mtsprCmpe r | mtsprCmpf r | mtsprCmpg r | mtsprCmph r | mtsprLctrl1 r | mtsprLctrl2 r | mtsprIctrl r | mtsprBar r
  | mtsprDpdr r =>
    exact decode_encodeMtspr _ r
  | mtmsr r => exact decode_encode_mtmsr r
  | rfi | isync | sync => rfl
  | stwu rs d ra => exact decode_encode_stwu hi

/-- Settles O3: each of these codes is the encoding of its instruction. -/
theorem decodeSpecWords : Obligations.DecodeSpecWords :=
  ⟨decodeEncodeAgree .rfi rfl, decodeEncodeAgree .isync rfl, decodeEncodeAgree .sync rfl,
    decodeEncodeAgree (.mfsprDpdr 31#5) rfl, decodeEncodeAgree (.stwu 31#5 4 30#5) rfl,
    decodeEncodeAgree (.mtmsr 3#5) rfl, decodeEncodeAgree (.mtsprDer 5#5) rfl, decodeEncodeAgree (.mfsprEcr 4#5) rfl,
    decodeEncodeAgree (.instr 0x4C000064#32) rfl, decodeEncodeAgree (.data 7#32) rfl,
    decodeEncodeAgree (.tecr 0b1000001#7) rfl, decodeEncodeAgree (.cmdBrk true false) rfl,
    decodeEncodeAgree .cmdStartDownload rfl, decodeEncodeAgree .cmdEndDownload rfl⟩

/-! ### Encoding what was decoded -/

/-- What primary opcode 31 decodes to has exactly these fields: each row fixes every field that it does not name. -/
theorem encode_of_decodeOp31 {r lo hi : BitVec 5} {xo : BitVec 10} {rc : BitVec 1} {i : Instr}
    (h : decodeOp31 r lo hi xo rc = .ok i) : i.WellFormed ∧ encode i = .word (wordOfFields 31#6 r lo hi xo rc) := by
  unfold decodeOp31 at h
  split at h
  case isFalse => cases h
  rename_i hrc
  split at h
  case h_1 hxo =>
    obtain rfl : xo = 339#10 := BitVec.eq_of_toNat_eq hxo
    split at h
    · next n hn =>
      cases h
      rw [encode_mfspr, encodeMfspr, Spr.number_of_ofNumber hn, mfsprWord_append, hrc]
      exact ⟨wellFormed_mfspr r n, rfl⟩
    · cases h
  case h_2 hxo =>
    obtain rfl : xo = 467#10 := BitVec.eq_of_toNat_eq hxo
    split at h
    · next n hn =>
      cases h
      rw [encode_mtspr, encodeMtspr, Spr.number_of_ofNumber hn, mtsprWord_append, hrc]
      exact ⟨wellFormed_mtspr r n, rfl⟩
    · cases h
  case h_3 hxo =>
    obtain rfl : xo = 146#10 := BitVec.eq_of_toNat_eq hxo
    split at h
    · next hzero =>
      obtain ⟨rfl, rfl⟩ := hzero
      cases h
      exact ⟨rfl, by rw [hrc]; rfl⟩
    · cases h
  case h_4 hxo =>
    obtain rfl : xo = 598#10 := BitVec.eq_of_toNat_eq hxo
    split at h
    · next hzero =>
      obtain ⟨rfl, rfl, rfl⟩ := hzero
      cases h
      exact ⟨rfl, by rw [hrc]; rfl⟩
    · cases h
  case h_5 => cases h

/-- Any 16 bits are the displacement of a well-formed `stwu` (R162, R163). -/
theorem encode_stwu_toInt (rs ra : Reg) (d : BitVec 16) :
    (Instr.stwu rs d.toInt ra).WellFormed ∧ encode (.stwu rs d.toInt ra) = .word (37#6 ++ rs ++ ra ++ d) := by
  have hlow : -32768 ≤ d.toInt := BitVec.le_toInt d
  have hhigh : d.toInt < 32768 := BitVec.toInt_lt
  exact ⟨by simp [Instr.WellFormed, Instr.wellFormed]; omega, by rw [encode, BitVec.ofInt_toInt]⟩

theorem encode_of_decodeWord {w : Word} {i : Instr} (h : decodeWord w = .ok i) :
    i.WellFormed ∧ encode i = .word w := by
  unfold decodeWord at h
  split at h
  case h_1 hop =>
    have hop : w.extractLsb' 26 6 = 31#6 := BitVec.eq_of_toNat_eq hop
    have hword := encode_of_decodeOp31 h
    rwa [← hop, wordOfFields_extractLsb'] at hword
  case h_2 hop =>
    have hop : w.extractLsb' 26 6 = 37#6 := BitVec.eq_of_toNat_eq hop
    have hword := encode_stwu_toInt (w.extractLsb' 21 5) (w.extractLsb' 16 5) (w.extractLsb' 0 16)
    rw [← hop, stwu_fields_extractLsb'] at hword
    cases h
    exact hword
  case h_3 =>
    split at h
    · next hw => cases h; exact ⟨rfl, by rw [hw]; rfl⟩
    · split at h
      · next hw => cases h; exact ⟨rfl, by rw [hw]; rfl⟩
      · cases h
  case h_4 => cases h

theorem encode_decodeData7 (control : Bool) (d : BitVec 7) :
    (decodeData7 control d).WellFormed ∧
      encode (decodeData7 control d) = .dp10 (frameHeader true true control ++ d) := by
  cases control with
  | false => exact ⟨rfl, rfl⟩
  | true =>
    have hd : d.extractLsb' 5 2 ++ d.extractLsb' 0 5 = d := BitVec.extractLsb'_append_extractLsb'
    have hcommand := encode_decodeCommand (d.extractLsb' 5 2) (d.extractLsb' 0 5)
    rwa [encodeCommand_eq, hd] at hcommand

theorem encode_of_decodeDp10 {b : BitVec 10} {i : Instr} (h : decodeDp10 b = .ok i) :
    i.WellFormed ∧ encode i = .dp10 b := by
  obtain ⟨start, mode, control, d, rfl⟩ := exists_frameHeader (n := 7) b
  rw [decodeDp10_frameHeader] at h
  split at h
  case isFalse => cases h
  next hstart =>
    split at h
    case isFalse => cases h
    next hmode =>
      cases h
      rw [hstart, hmode]
      exact encode_decodeData7 control d

theorem encode_of_decodeDp35 {b : BitVec 35} {i : Instr} (h : decodeDp35 b = .ok i) :
    i.WellFormed ∧ encode i = .dp35 b := by
  obtain ⟨start, mode, control, v, rfl⟩ := exists_frameHeader (n := 32) b
  rw [decodeDp35_frameHeader] at h
  split at h
  case isFalse => cases h
  next hstart =>
    split at h
    case isTrue => cases h
    next hmode =>
      rw [hstart, Bool.eq_false_of_not_eq_true hmode]
      cases control <;> (cases h; exact ⟨rfl, rfl⟩)

/-- A move of a register exceptions save into is the encoding of what the CPU executes (log 53). -/
theorem encodeCpu_of_decodeSave {w : Word} {i : CpuInstr} (h : decodeSave w = some i) : encodeCpu i = .word w := by
  unfold decodeSave at h
  split at h
  case isFalse => cases h
  next hform =>
    obtain ⟨hop, hrc⟩ := hform
    split at h
    case h_1 n _ hn hxo =>
      have hxo : w.extractLsb' 1 10 = 339#10 := BitVec.eq_of_toNat_eq hxo
      cases h
      rw [encodeCpu, SaveReg.number_of_ofNumber hn, mfsprWord_append, ← hop, ← hxo, ← hrc,
        wordOfFields_extractLsb']
    case h_2 n _ hn hxo =>
      have hxo : w.extractLsb' 1 10 = 467#10 := BitVec.eq_of_toNat_eq hxo
      cases h
      rw [encodeCpu, SaveReg.number_of_ofNumber hn, mtsprWord_append, ← hop, ← hxo, ← hrc,
        wordOfFields_extractLsb']
    case h_3 => cases h

theorem encodeCpu_of_decodeCpu {w : Word} {i : CpuInstr} (h : decodeCpu w = some i) : encodeCpu i = .word w := by
  unfold decodeCpu at h
  split at h
  · next j hj =>
    cases h
    exact (encode_of_decodeWord hj).right
  · exact encodeCpu_of_decodeSave h

/-- Settles O2: every bit of a code that decodes is an operand or fixed by the row. -/
theorem encodeDecodeAgree : Obligations.EncodeDecodeAgree := by
  refine ⟨fun c i h => ?_, fun w i h => encodeCpu_of_decodeCpu h⟩
  cases c with
  | word w => exact encode_of_decodeWord h
  | dp10 b => exact encode_of_decodeDp10 h
  | dp35 b => exact encode_of_decodeDp35 h

end Sys2Proof
end

section
/-! SUPPORT and PROOFS. The program trace (40_program_trace.md): which fetches are shown, what a step adds to the trace
behind its fetch, when a change of VSYNC that waits is reported, and what the external hardware reads from VF, VFLS and the
trace events. -/

namespace Sys2Proof.Machine

/-! ### The fetch -/

/-- A step that fetches an instruction runs that instruction. -/
theorem Fetches.step_eq {s : State} {w : Word} {i : CpuInstr} (h : Fetches s w i) :
    step s = runFetched (some i) (fetched s) := by
  obtain ⟨hin, hstop, hdm, hnmbrk, hpending, hisct, _, hmem, hdec⟩ := h
  have hwait : waitsForTool s = false := by simp [waitsForTool, hdm]
  simp [step, stepMachine, hin, cpuStep, hstop, hwait, hdm, runStep, hnmbrk, hpending, hisct, hmem, hdec]

/-- ISCTL, the two low bits of the programming, chooses between all fetches and, from the second value on, marked ones
(R203, R204). -/
theorem fetchVisible_eq (p : BitVec 3) (vsync : Bool) (m : FetchMark) :
    fetchVisible (p.extractLsb' 0 2) vsync m =
      if p.getMsbD 1 then m.ptc && (!p.getMsbD 2 || vsync || m.vsync) else !p.getMsbD 2 || m.cof || m.ptc := by
  obtain ⟨ptc, cof, change⟩ := m
  revert p vsync ptc cof change
  decide

theorem fetched_events (s : State) :
    (fetched s).trace.events = s.trace.events ++
      (if fetchVisible (s.trace.isct.extractLsb' 0 2) (s.port.tecr.vsync || s.trace.vsyncHeld != 0) s.trace.mark then
        [.showCycle (s.cpu.pc.extractLsb' 2 30) s.trace.mark.ptc] else []) := by
  simp only [fetched, showFetch]
  split
  · rfl
  · exact (List.append_nil _).symm

/-! ### What is added to the trace -/

/-- From `s` to `t` events are only added behind the others, and no change of VSYNC that waits is reported or joined by
another. -/
structure TraceGrows (s t : State) : Prop where
  events : s.trace.events <+: t.trace.events
  held : t.trace.vsyncHeld = s.trace.vsyncHeld

section
variable {s t u : State}

/-- A change of the rest of the trace, such as the pins. -/
theorem TraceGrows.of_same (he : t.trace.events = s.trace.events) (hh : t.trace.vsyncHeld = s.trace.vsyncHeld) :
    TraceGrows s t where
  events := by rw [he]
  held := hh

theorem TraceGrows.of_eq (h : t.trace = s.trace) : TraceGrows s t :=
  .of_same (by rw [h]) (by rw [h])

theorem TraceGrows.trans (h : TraceGrows s t) (h' : TraceGrows t u) : TraceGrows s u where
  events := h.events.trans h'.events
  held := h'.held.trans h.held

/-- What leaves the trace alone, before the trace grows. -/
theorem TraceGrows.after (h : TraceGrows t u) (ht : t.trace = s.trace) : TraceGrows s u :=
  (TraceGrows.of_eq ht).trans h

/-- What leaves the trace alone, after the trace has grown. -/
theorem TraceGrows.quiet (h : TraceGrows s t) (hu : u.trace = t.trace) : TraceGrows s u :=
  h.trans (.of_eq hu)

end

theorem traceGrows_reportType (c : BitVec 3) (s : State) : TraceGrows s (reportType c s) where
  events := by
    rw [reportType_events]
    exact ⟨_, rfl⟩
  held := by unfold reportType; split <;> rfl

theorem traceGrows_markNext (m : FetchMark) (s : State) : TraceGrows s (markNext m s) where
  events := by rw [markNext_events]
  held := by unfold markNext; split <;> rfl

/-- A report and the marks of the next fetch. -/
theorem traceGrows_markNext_reportType (m : FetchMark) (c : BitVec 3) (s : State) :
    TraceGrows s (markNext m (reportType c s)) :=
  (traceGrows_reportType c s).trans (traceGrows_markNext m _)

theorem traceGrows_completeSequential (s : State) : TraceGrows s (completeSequential s) :=
  .after (traceGrows_reportType _ (advance s)) rfl

theorem traceGrows_completeMarked (s : State) : TraceGrows s (completeMarked s) :=
  .after (traceGrows_markNext_reportType _ _ (advance s)) rfl

theorem traceGrows_completeMaybeMarked (s : State) : TraceGrows s (completeMaybeMarked s) := by
  unfold completeMaybeMarked
  split
  · exact .of_eq rfl
  · refine .after (t := advance s) ?_ rfl
    exact .quiet (traceGrows_markNext_reportType _ _ _) (spend_trace _ _)

theorem traceGrows_regularException (e : Event) (a : Word) (s : State) : TraceGrows s (regularException e a s) :=
  .after (traceGrows_markNext_reportType _ _ _) rfl

/-- Debug mode entry adds its report and its cycle, and leaves the changes of VSYNC waiting (R452, log 51). -/
theorem traceGrows_enterDebug (e : Option Event) (a : Word) (s : State) : TraceGrows s (enterDebug e a s) where
  events := ⟨_, rfl⟩
  held := rfl

theorem traceGrows_markExcepted {s t : State} (h : TraceGrows s t) : TraceGrows s (markExcepted t) :=
  h.quiet rfl

theorem traceGrows_raiseAll (e : Event) (es : List Event) (resume : Word) (s : State) :
    TraceGrows s (raiseAll e es resume s) := by
  rcases raiseAll_cases e es resume s with ⟨_, b, p, h⟩ | ⟨_, _, _, e', a, b, z, h⟩ | ⟨_, _, e', a, b, z, h⟩ <;> rw [h]
  · exact .of_eq rfl
  · exact traceGrows_markExcepted (.after (traceGrows_enterDebug _ a _) rfl)
  · exact traceGrows_markExcepted (.after (traceGrows_regularException _ a _) rfl)

theorem traceGrows_raise (e : Event) (resume : Word) (s : State) : TraceGrows s (raise e resume s) :=
  traceGrows_raiseAll e [] resume s

theorem traceGrows_leaveDebug (s : State) : TraceGrows s (leaveDebug s) :=
  have hleft : TraceGrows s { s with mode.dm := false, cpu.wait := .none, trace.vsyncChanged := false } :=
    .of_same rfl rfl
  hleft.trans (traceGrows_markNext_reportType _ _ _)

theorem traceGrows_returnFromException (s : State) : TraceGrows s (returnFromException s) := by
  refine .after (t := restoreContext s) ?_ rfl
  unfold returnFromException
  split
  · split
    · exact (traceGrows_leaveDebug _).trans (traceGrows_enterDebug _ _ _)
    · exact traceGrows_leaveDebug _
  · exact traceGrows_markNext_reportType _ _ _

/-! ### How an instruction ends -/

/-- The ends of an instruction that is executed in `s`: the program exception, the return from an exception, or its
completion, from a state `u` in which its report is still to be made. -/
inductive Ends (s : State) : State → Prop where
  | excepted : Ends s (programException s)
  | returned : Ends s (returnFromException s)
  | sequential (u : State) (h : u.trace = s.trace) : Ends s (completeSequential u)
  | marked (u : State) (h : u.trace = s.trace) : Ends s (completeMarked u)
  | maybeMarked (u : State) (h : u.trace = s.trace) : Ends s (completeMaybeMarked u)

theorem Ends.traceGrows {s t : State} (h : Ends s t) : TraceGrows s t := by
  cases h with
  | excepted => exact traceGrows_raise _ _ s
  | returned => exact traceGrows_returnFromException s
  | sequential u hu => exact (traceGrows_completeSequential u).after hu
  | marked u hu => exact (traceGrows_completeMarked u).after hu
  | maybeMarked u hu => exact (traceGrows_completeMaybeMarked u).after hu

theorem ends_mtsprComplete {s u : State} (n : Spr) (h : u.trace = s.trace) : Ends s (mtsprComplete n u) := by
  rcases mtsprComplete_cases n u with hc | hc <;> rw [hc]
  · exact .sequential u h
  · exact .maybeMarked u h

theorem ends_mfspr {n : Spr} {rd : Reg} {s t : State} (h : exec (.mfspr rd n) s = .next t) : Ends s t := by
  by_cases hn : n = .dpdr
  · subst hn
    simp only [Instr.mfspr, exec, execMfsprDpdr] at h
    split at h
    · cases h; exact .excepted
    · split at h <;> (cases h; exact .sequential _ rfl)
  · obtain ⟨v, k, he⟩ := exec_mfspr hn rd s
    rw [he] at h
    split at h <;> cases h
    · exact .excepted
    · refine .sequential _ ?_
      split <;> simp

theorem ends_mtspr {n : Spr} {rs : Reg} {s t : State} (h : exec (.mtspr rs n) s = .next t) : Ends s t := by
  rw [exec_mtspr] at h
  split at h
  · cases h; exact .excepted
  · split at h <;> cases h
    · exact ends_mtsprComplete n rfl
    · exact ends_mtsprComplete n (writtenState_trace n _ s)

theorem ends_mtmsr {rs : Reg} {s t : State} (h : exec (.mtmsr rs) s = .next t) : Ends s t := by
  simp only [exec, execMtmsr] at h
  split at h
  · cases h; exact .excepted
  · split at h <;> cases h
    exact .marked _ rfl

theorem ends_rfi {s t : State} (h : exec .rfi s = .next t) : Ends s t := by
  simp only [exec, execRfi] at h
  split at h <;> cases h
  · exact .excepted
  · exact .returned

theorem ends_exec_word {w : Word} {j : Instr} {s t : State} (hj : decodeWord w = .ok j) (h : exec j s = .next t) :
    Ends s t := by
  rcases decodeWord_cases hj with ⟨n, r, rfl⟩ | ⟨n, r, rfl⟩ | ⟨r, rfl⟩ | rfl | rfl | rfl | ⟨rs, d, ra, rfl⟩
  · exact ends_mfspr h
  · exact ends_mtspr h
  · exact ends_mtmsr h
  · cases h; exact .sequential _ rfl
  · exact ends_rfi h
  · cases h; exact .marked s rfl
  · cases h; exact .sequential _ rfl

theorem ends_execCpu {w : Word} {i : CpuInstr} {s t : State} (hdm : s.mode.dm = false) (hi : decodeCpu w = some i)
    (h : execCpu i s = .next t) : Ends s t := by
  rcases execCpu_next h with ⟨j, rfl, hj⟩ | ⟨rd, n, rfl, rfl⟩ | ⟨n, rs, rfl, rfl⟩
  · rcases decodeCpu_cases hi with ⟨j', hw, hjj⟩ | ⟨_, _, hne⟩ | ⟨_, _, hne⟩
    · cases hjj; exact ends_exec_word hw hj
    · cases hne
    · cases hne
  · split
    · rw [moveException_outside hdm]; exact .excepted
    · exact .sequential _ rfl
  · split
    · rw [moveException_outside hdm]; exact .excepted
    · exact .sequential _ (by cases n <;> rfl)

/-! ### The step up to its end -/

@[simp] theorem settleIfm_trace (i : Option CpuInstr) (s t : State) : (settleIfm i s t).trace = t.trace := by
  unfold settleIfm; split <;> rfl

/-- The breakpoint sets the pins, then raises its event. -/
theorem traceGrows_takeInstrBreak (i : Option CpuInstr) (s : State) : TraceGrows s (takeInstrBreak i s) := by
  refine TraceGrows.trans ?_ (traceGrows_raise _ _ _)
  exact .of_same (by simp) (by simp)

theorem traceGrows_raiseAfter (brk : Option Word) (trace : Bool) (t : State) : TraceGrows t (raiseAfter brk trace t) := by
  cases brk <;> cases trace
  case none.false => exact .of_eq rfl
  case none.true => exact traceGrows_raise _ _ t
  case some.false => exact .after (traceGrows_raise _ _ _) rfl
  case some.true => exact .after (traceGrows_raiseAll _ _ _ _) rfl

theorem traceGrows_retire (i : CpuInstr) (s t : State) : TraceGrows t (retire i s t) := by
  have hpins : TraceGrows t (reportRetired i s t (watched s t)) := .of_same rfl rfl
  unfold retire
  split
  · exact .of_eq rfl
  · exact hpins.trans (traceGrows_raiseAfter _ _ _)

/-- Outside debug mode and with no exception of the CPU in its place, the step of a fetched instruction is what adds to the
trace, and then the end of the step. -/
theorem runFetched_grows_then_finishes {w : Word} {i : CpuInstr} {s t : State} (hdm : s.mode.dm = false)
    (hexc : s.ext.cpuExc = none) (hi : decodeCpu w = some i) (h : runFetched (some i) s = .next t) :
    ∃ u, TraceGrows s u ∧ t = finish s u := by
  rcases runFetched_next h with ⟨_, rfl⟩ | ⟨_, e, he, _⟩ | ⟨_, _, j, u, hj, hu, rfl⟩
  · exact ⟨_, traceGrows_takeInstrBreak _ s, rfl⟩
  · rw [hexc] at he; cases he
  · cases hj
    have hpass : (passBreak s).mode.dm = false := by simp [hdm]
    have hexec : TraceGrows s u := (ends_execCpu hpass hi hu).traceGrows.after (passBreak_trace s)
    exact ⟨_, hexec.trans ((traceGrows_retire i s _).after (settleIfm_trace _ s u)), rfl⟩

/-! ### The end of the step -/

theorem vsyncEvent_events {s : State} (h : s.mode.dm = false) :
    (vsyncEvent s).trace.events = s.trace.events ++ [.typeCode 0b011#3] := by
  simp [vsyncEvent, reportType_events, h]

theorem vsyncEvent_mark {s : State} (h : s.mode.dm = false) :
    (vsyncEvent s).trace.mark = s.trace.mark.join ⟨true, false, true⟩ := by
  simp [vsyncEvent, markNext, h]

@[simp] theorem vsyncEvent_vsyncHeld (s : State) : (vsyncEvent s).trace.vsyncHeld = s.trace.vsyncHeld :=
  (traceGrows_markNext_reportType _ _ s).held

/-- The end of a step leaves the changes of VSYNC waiting, in debug mode, with no change or with an address still to be
shown; else it reports the first of them and marks the next fetch (R198, R204, log 51). -/
theorem finish_vsync (s u : State) :
    ((u.mode.dm = true ∨ u.trace.vsyncHeld = 0 ∨ u.trace.mark.ptc = true) ∧
      (finish s u).trace = { u.trace with isct := ictrlIsct s.dev.ictrl }) ∨
    (u.mode.dm = false ∧ (finish s u).trace.vsyncHeld + 1 = u.trace.vsyncHeld ∧
      (finish s u).trace.events = u.trace.events ++ [.typeCode 0b011#3] ∧
      (finish s u).trace.mark = u.trace.mark.join ⟨true, false, true⟩) := by
  unfold finish
  rcases reportHeldVsync_cases { u with cpu.flight := Flight.idle, trace.isct := ictrlIsct s.dev.ictrl }
    with ⟨hwait, h⟩ | ⟨hdm, hheld, _, h⟩ <;> rw [h]
  · exact .inl ⟨hwait, rfl⟩
  · right
    refine ⟨hdm, ?_, vsyncEvent_events hdm, vsyncEvent_mark hdm⟩
    rw [vsyncEvent_vsyncHeld]
    exact Nat.sub_add_cancel (Nat.pos_of_ne_zero hheld)

theorem finish_adds_events (s u : State) : u.trace.events <+: (finish s u).trace.events := by
  rcases finish_vsync s u with ⟨_, h⟩ | ⟨_, _, h, _⟩ <;> rw [h]
  exact ⟨_, rfl⟩

/-- What becomes of the changes of VSYNC that wait. -/
theorem finish_waiting {s u : State} (h : u.trace.vsyncHeld ≠ 0) :
    ((finish s u).trace.vsyncHeld = u.trace.vsyncHeld ∧
      ((finish s u).mode.dm = true ∨ (finish s u).trace.mark.ptc = true)) ∨
    ((finish s u).trace.vsyncHeld + 1 = u.trace.vsyncHeld ∧ (finish s u).mode.dm = false ∧
      (∃ before, (finish s u).trace.events = before ++ [.typeCode 0b011#3]) ∧
      (finish s u).trace.mark.ptc = true ∧ (finish s u).trace.mark.vsync = true) := by
  rw [finish_mode]
  rcases finish_vsync s u with ⟨hwait, htrace⟩ | ⟨hdm, hheld, hevents, hmark⟩
  · left
    rw [htrace]
    exact ⟨rfl, hwait.imp_right fun hw => hw.resolve_left h⟩
  · right
    rw [hmark]
    exact ⟨hheld, hdm, ⟨_, hevents⟩, Bool.or_true _, Bool.or_true _⟩

/-- Settles O59: the fetch shows its cycle, the instruction only adds to the trace, and the end of the step puts the
programming of the fetch in force and reports what no longer waits. -/
theorem showCycles : Obligations.ShowCycles := by
  intro s t w i hf hstep
  rw [hf.step_eq] at hstep
  obtain ⟨_, _, hdm, _, _, _, hexc, _, hdec⟩ := hf
  obtain ⟨u, hgrows, rfl⟩ := runFetched_grows_then_finishes (s := fetched s) hdm hexc hdec hstep
  refine ⟨?_, ?_, finish_isct _ u, ?_⟩
  · rw [fetched_events, fetchVisible_eq]
    cases s.trace.isct.getMsbD 1 <;> cases s.trace.isct.getMsbD 2 <;> simp
  · obtain ⟨rest, hrest⟩ := hgrows.events.trans (finish_adds_events (fetched s) u)
    exact ⟨rest, hrest.symm⟩
  · intro hheld
    have hu : u.trace.vsyncHeld = s.trace.vsyncHeld := hgrows.held
    rw [← hu] at hheld ⊢
    exact finish_waiting hheld

/-! ### The status pins -/

/-- The type codes after which flush information follows are 100, 101, 110 and 111 (R187). -/
theorem announcesFlush_iff (c : BitVec 3) : announcesFlush c = true ↔ 4 ≤ c.toNat := by
  revert c; decide

theorem vfDecode_type (c : BitVec 3) :
    vfDecode .type c = some (.instrType c, if 4 ≤ c.toNat then .flush else .type) := by
  simp only [vfDecode, announcesFlush_iff]

/-- In the flush position a code below 110 is the count it spells (R188). -/
theorem vfDecode_flush_count {c : BitVec 3} {n : Fin 6} (h : c.toNat = n.val) :
    vfDecode .flush c = some (.flushed n, .type) := by
  have hlt : c.toNat < 6 := h ▸ n.isLt
  have hne : c ≠ 0b111#3 := by
    rintro rfl
    exact absurd hlt (by decide)
  simp [vfDecode, hne, h]

theorem queueFlushCode_eq {c : BitVec 3} {n : Fin 6} (h : c.toNat = n.val) : queueFlushCode n = c := by
  rw [queueFlushCode, ← h, BitVec.ofNat_toNat, BitVec.setWidth_eq]

theorem historyFlushCode_toNat (n : Fin 3) : (historyFlushCode n).toNat = n.val := by
  revert n; decide

theorem vflsDecode_historyFlushCode (n : Fin 3) : vflsDecode (historyFlushCode n) = .flushed n := by
  simp [vflsDecode, historyFlushCode_toNat]

/-- VFLS in freeze and outside it (R155, R193). -/
theorem vflsPins_spec (n : Fin 3) (s : State) :
    (vflsPins n s = 0b11#2 ↔ s.mode.frz = true) ∧ (s.mode.frz = false → vflsPins n s = historyFlushCode n) ∧
      vflsDecode (vflsPins n s) = (if s.mode.frz then .freeze else .flushed n) := by
  unfold vflsPins
  cases s.mode.frz with
  | true => exact ⟨by simp, by simp, rfl⟩
  | false =>
    have hcount : historyFlushCode n ≠ 0b11#2 := by revert n; decide
    exact ⟨by simp [hcount], fun _ => rfl, vflsDecode_historyFlushCode n⟩

/-! ### The trace buffers -/

/-- The buffer of a back trace: sampling stops at the second report of VSYNC (R198, R201). -/
theorem backTrace_two_reports {before window : List TraceEvent} (hb : vsyncReport ∉ before) (hw : vsyncReport ∉ window)
    (after : List TraceEvent) :
    backTrace (before ++ vsyncReport :: window ++ vsyncReport :: after) =
      before.filter sampled ++ vsyncReport :: window.filter sampled ++ [vsyncReport] := by
  rw [List.append_assoc, List.cons_append, backTrace, uptoVsync_append hb, uptoVsync_append hw]
  simp [List.filter_cons]

/-- The buffer of a window trace is that of a back trace from the first report on (R202). -/
theorem windowTrace_two_reports {before window : List TraceEvent} (hb : vsyncReport ∉ before)
    (hw : vsyncReport ∉ window) (after : List TraceEvent) :
    windowTrace (before ++ vsyncReport :: window ++ vsyncReport :: after) =
      vsyncReport :: window.filter sampled ++ [vsyncReport] := by
  rw [List.append_assoc, List.cons_append, windowTrace, dropWhile_vsyncReport hb]
  exact backTrace_two_reports (before := []) List.not_mem_nil hw after

/-- Only show cycles that are not marked are left out (R201). -/
theorem sampled_eq_false_iff (e : TraceEvent) : sampled e = false ↔ ∃ a, e = .showCycle a false := by
  cases e <;> simp [sampled]

/-- Settles O60: each decoder and each buffer by its own lemma. -/
theorem statusPinDecoders : Obligations.StatusPinDecoders :=
  ⟨vfDecode_type, rfl, rfl, fun _ _ h => ⟨queueFlushCode_eq h, vfDecode_flush_count h⟩, rfl, rfl, rfl, rfl,
    vflsPins_spec, fun _ _ after hb hw => ⟨backTrace_two_reports hb hw after, windowTrace_two_reports hb hw after⟩,
    sampled_eq_false_iff⟩

end Sys2Proof.Machine
end

section
/-! SUPPORT and PROOFS. The comparators and the watchpoints (41_watchpoints_breakpoints.md R240 to R273): every
comparator is one comparison of two numbers by its compare type, and every selection a case split on the two bits of its
field. -/

namespace Sys2Proof.Machine

/-! ### Fields -/

theorem specField_eq (w : Word) (a n : Nat) : specField w a n = w.extractLsb' (32 - a - n) n :=
  BitVec.setWidth_ushiftRight_eq_extractLsb

/-- Bit `k` of a field that begins at bit `a`. -/
theorem specField_getMsbD (w : Word) {a n k : Nat} (hn : a + n ≤ 32) (hk : k < n) :
    (specField w a n).getMsbD k = w.getMsbD (a + k) := by
  rw [specField_eq, BitVec.getMsbD_extractLsb']
  have hle : 32 - a - n + n - k ≤ 32 := by omega
  have hpos : 32 - (32 - a - n + n - k) = a + k := by omega
  simp [hk, hle, hpos]

theorem specField_toNat (w : Word) (a n : Nat) : (specField w a n).toNat = w.toNat / 2 ^ (32 - a - n) % 2 ^ n := by
  rw [specField_eq, BitVec.extractLsb'_toNat, Nat.shiftRight_eq_div_pow]

/-! ### Compare types (R240) -/

/-- `x` stands to `y` as an active compare type says: 100 equal, 101 less, 110 greater, 111 not equal. -/
def Compares {α : Type} [LinearOrder α] (ct : BitVec 3) (x y : α) : Prop :=
  ct.getMsbD 0 = true ∧
    if ct.getMsbD 1 = true then (if ct.getMsbD 2 = true then x ≠ y else y < x)
    else if ct.getMsbD 2 = true then x < y else x = y

theorem compareMatch_eq (ct : BitVec 3) (eq lt : Bool) :
    compareMatch ct eq lt =
      (ct.getMsbD 0 &&
        if ct.getMsbD 1 then (if ct.getMsbD 2 then !eq else !eq && !lt) else if ct.getMsbD 2 then lt else eq) := by
  revert ct eq lt; decide

/-- With the "equal" and "less than" signals of two numbers a comparator compares the numbers. -/
theorem compareMatch_iff {α : Type} [LinearOrder α] {x y : α} {eq lt : Bool} (he : eq = true ↔ x = y)
    (hl : lt = true ↔ x < y) (ct : BitVec 3) : compareMatch ct eq lt = true ↔ Compares ct x y := by
  have hgt : (¬x = y ∧ y ≤ x) ↔ y < x := by rw [and_comm, lt_iff_le_and_ne, ne_comm]
  rw [compareMatch_eq, Compares]
  cases ct.getMsbD 1 <;> cases ct.getMsbD 2 <;> simp [← Bool.not_eq_true, he, hl, hgt]

theorem instrCompare_iff (ct : BitVec 3) (c a : BitVec 30) :
    instrCompare ct c a = true ↔ Compares ct a.toNat c.toNat :=
  compareMatch_iff (by rw [beq_iff_eq, BitVec.toNat_eq]) BitVec.ult_iff_toNat_lt ct

/-- Settles O44: the comparator by its compare type, and the fields of ICTRL that program the four. -/
theorem instructionComparators : Obligations.InstructionComparators := by
  refine ⟨fun ct c a => ?_, fun a d => ?_⟩
  · rw [Bool.eq_iff_iff, instrCompare_iff, Compares]
    cases ct.getMsbD 1 <;> cases ct.getMsbD 2 <;> simp
  · simp only [specField_eq]
    exact ⟨rfl, rfl, rfl, rfl⟩

/-! ### Instruction watchpoints (R241) -/

theorem iwpSelect_eq (field : BitVec 2) (single combined : Bool) :
    iwpSelect field single combined = (field.getMsbD 0 && if field.getMsbD 1 then combined else single) := by
  revert field single combined; decide

/-- The selection by a field of two bits of ICTRL that begins at bit `p`. -/
theorem iwpSelect_specField (w : Word) {p : Nat} (hp : p + 2 ≤ 32) (single combined : Bool) :
    iwpSelect (specField w p 2) single combined = (w.getMsbD p && if w.getMsbD (p + 1) then combined else single) := by
  rw [iwpSelect_eq, specField_getMsbD w hp (by omega), specField_getMsbD w hp (by omega), Nat.add_zero]

/-- Settles O45: the four selections by their fields. -/
theorem instructionWatchpoints : Obligations.InstructionWatchpoints := by
  intro a d
  have select := fun {p} (hp : p + 2 ≤ 32) => iwpSelect_specField d.ictrl hp
  simp only [specField_eq] at select
  exact ⟨select (p := 12) (by omega) _ _, select (p := 14) (by omega) _ _, select (p := 16) (by omega) _ _,
    select (p := 18) (by omega) _ _⟩

/-! ### Load/store address comparators (R264) -/

/-- The sizes of a bus cycle. -/
theorem addressMask_eq {size : Nat} (h : size = 1 ∨ size = 2 ∨ size = 4) :
    ∃ k, size = 2 ^ k ∧ addressMask size = BitVec.allOnes 32 <<< k ∧ k ≤ 2 := by
  rcases h with rfl | rfl | rfl
  · exact ⟨0, rfl, by decide, by omega⟩
  · exact ⟨1, rfl, by decide, by omega⟩
  · exact ⟨2, rfl, by decide, by omega⟩

/-- The bits that a cycle compares are those of the number of its unit. -/
theorem and_addressMask_toNat {size : Nat} (h : size = 1 ∨ size = 2 ∨ size = 4) (a : Word) :
    (a &&& addressMask size).toNat = a.toNat / size * size := by
  obtain ⟨k, rfl, hmask, _⟩ := addressMask_eq h
  have hlt : a.toNat / 2 ^ k * 2 ^ k < 2 ^ 32 := lt_of_le_of_lt (Nat.div_mul_le_self _ _) a.isLt
  rw [hmask, ← BitVec.shiftLeft_ushiftRight, BitVec.toNat_shiftLeft, BitVec.toNat_ushiftRight,
    Nat.shiftLeft_eq, Nat.shiftRight_eq_div_pow, Nat.mod_eq_of_lt hlt]

theorem unalignedCycle_eq_false {c : BusCycle} (h : c.size = 1 ∨ c.size = 2 ∨ c.size = 4)
    (ha : c.addr.toNat % c.size = 0) : unalignedCycle c = false := by
  have hself : c.addr &&& addressMask c.size = c.addr := by
    apply BitVec.eq_of_toNat_eq
    rw [and_addressMask_toNat h, Nat.div_mul_cancel (Nat.dvd_of_mod_eq_zero ha)]
  have hzero : c.addr &&& ~~~addressMask c.size = 0#32 := by
    rw [← hself, BitVec.and_assoc, BitVec.and_not_self]
    exact BitVec.and_zero
  simp [unalignedCycle, hzero]

theorem directionSelected_eq (crw : BitVec 2) (write : Bool) :
    directionSelected crw write = (!crw.getMsbD 0 || crw.getMsbD 1 == write) := by
  revert crw write; decide

/-- On an aligned cycle a load/store address comparator compares the numbers of the two units. -/
theorem addressCompare_iff {c : BusCycle} (h : c.size = 1 ∨ c.size = 2 ∨ c.size = 4) (ha : c.addr.toNat % c.size = 0)
    (ct : BitVec 3) (crw : BitVec 2) (v : Word) (free : Bool) :
    addressCompare ct crw v c free = true ↔
      (!crw.getMsbD 0 || crw.getMsbD 1 == c.write) = true ∧
        Compares ct (c.addr.toNat / c.size) (v.toNat / c.size) := by
  have hpos : 0 < c.size := by omega
  have heq : (c.addr &&& addressMask c.size == v &&& addressMask c.size) = true ↔
      c.addr.toNat / c.size = v.toNat / c.size := by
    rw [beq_iff_eq, BitVec.toNat_eq, and_addressMask_toNat h, and_addressMask_toNat h,
      Nat.mul_left_inj (Nat.ne_of_gt hpos)]
  have hlt : (c.addr &&& addressMask c.size).ult (v &&& addressMask c.size) = true ↔
      c.addr.toNat / c.size < v.toNat / c.size := by
    rw [BitVec.ult_iff_toNat_lt, and_addressMask_toNat h, and_addressMask_toNat h, Nat.mul_lt_mul_right hpos]
  rw [addressCompare, unalignedCycle_eq_false h ha, if_neg Bool.false_ne_true, Bool.and_eq_true, directionSelected_eq,
    compareMatch_iff heq hlt]

/-- Settles O46: the comparator on an aligned cycle, and the fields of LCTRL1 that program E and F. -/
theorem loadStoreAddressComparators : Obligations.LoadStoreAddressComparators := by
  refine ⟨fun ct crw v c free h ha => ?_, fun d c free => ?_⟩
  · rw [Bool.eq_iff_iff, addressCompare_iff h ha, Compares]
    cases ct.getMsbD 1 <;> cases ct.getMsbD 2 <;> simp [and_assoc]
  · simp only [specField_eq]
    exact ⟨rfl, rfl⟩

/-! ### Data comparators (R266 to R268) -/

/-- A compare size selects units of `u` lanes. -/
def UnitSize (size : BitVec 2) (u : Nat) : Prop :=
  (size = 0b11#2 ∧ u = 1) ∨ (size = 0b10#2 ∧ u = 2) ∨ (size = 0b01#2 ∧ u = 4)

theorem UnitSize.ne_zero {size : BitVec 2} {u : Nat} (h : UnitSize size u) : size ≠ 0#2 := by
  rintro rfl
  rcases h with ⟨h, _⟩ | ⟨h, _⟩ | ⟨h, _⟩ <;> exact absurd h (by decide)

/-- The unit of lane `j` begins at the lane below it that is a multiple of the unit's size. -/
theorem unitLanes_eq {size : BitVec 2} {j u : Nat} (hu : UnitSize size u) (hj : j < 4) :
    unitLanes size j = List.range' (j - j % u) u := by
  have hlane : j = 0 ∨ j = 1 ∨ j = 2 ∨ j = 3 := by omega
  rcases hu with ⟨rfl, rfl⟩ | ⟨rfl, rfl⟩ | ⟨rfl, rfl⟩ <;> rcases hlane with rfl | rfl | rfl | rfl <;> rfl

theorem UnitSize.fits {size : BitVec 2} {j u : Nat} (hu : UnitSize size u) (hj : j < 4) :
    0 < u ∧ j - j % u + u ≤ 4 := by
  rcases hu with ⟨_, rfl⟩ | ⟨_, rfl⟩ | ⟨_, rfl⟩ <;> omega

theorem lane_toNat (w : Word) (k : Nat) : (lane w k).toNat = w.toNat / 2 ^ (24 - 8 * k) % 256 := by
  rw [lane, BitVec.extractLsb'_toNat, Nat.shiftRight_eq_div_pow]

/-- The number in adjacent lanes of a word is the field of their bits. -/
theorem unitValue_range' (w : Word) (lo : Nat) {u : Nat} (h : lo + u ≤ 4) :
    unitValue w (List.range' lo u) = (specField w (8 * lo) (8 * u)).toNat := by
  induction u with
  | zero => simp [unitValue, BitVec.of_length_zero]
  | succ u ih =>
    have hsplit : unitValue w (List.range' lo (u + 1)) =
        unitValue w (List.range' lo u) * 256 + (lane w (lo + u)).toNat := by
      simp [unitValue, List.range'_concat]
    have hupper : 32 - 8 * lo - 8 * u = 24 - 8 * (lo + u) + 8 := by omega
    have hlower : 32 - 8 * lo - 8 * (u + 1) = 24 - 8 * (lo + u) := by omega
    have hwidth : 2 ^ (8 * (u + 1)) = 256 * 2 ^ (8 * u) := by rw [Nat.mul_succ, Nat.pow_add, Nat.mul_comm]
    rw [hsplit, ih (by omega), lane_toNat, specField_toNat, specField_toNat, hupper, hlower, hwidth, Nat.mod_mul,
      Nat.pow_add, ← Nat.div_div_eq_div_mul, Nat.add_comm]
    exact congrArg _ (Nat.mul_comm _ _)

/-- A unit's "less than" signal compares two's complement numbers in signed mode and unsigned numbers otherwise. -/
theorem unitLess_range' (signed : Bool) (lo : Nat) {u : Nat} (b v : BitVec (8 * u)) :
    unitLess signed (List.range' lo u) b.toNat v.toNat =
      if signed then decide (b.toInt < v.toInt) else decide (b.toNat < v.toNat) := by
  unfold unitLess
  rw [List.length_range', BitVec.ofNat_toNat, BitVec.ofNat_toNat, BitVec.setWidth_eq, BitVec.setWidth_eq]

/-- The compare of a unit, in signed mode and otherwise. -/
theorem compareMatch_unit {u : Nat} (ct : BitVec 3) (signed : Bool) (lo : Nat) (b v : BitVec (8 * u)) :
    compareMatch ct (b.toNat == v.toNat) (unitLess signed (List.range' lo u) b.toNat v.toNat) = true ↔
      if signed then Compares ct b.toInt v.toInt else Compares ct b.toNat v.toNat := by
  rw [unitLess_range']
  cases signed with
  | false => exact compareMatch_iff beq_iff_eq decide_eq_true_iff ct
  | true => exact compareMatch_iff (by rw [beq_iff_eq, ← BitVec.toNat_eq, BitVec.toInt_inj]) decide_eq_true_iff ct

/-- Which lanes of a unit carry information of the cycle. -/
theorem all_laneValid_range' (c : BusCycle) (lo : Nat) {u : Nat} (hu : 0 < u) :
    (List.range' lo u).all (laneValid c) = true ↔
      c.addr.toNat % 4 ≤ lo ∧ lo + u ≤ c.addr.toNat % 4 + c.size := by
  have haddr : (c.addr.extractLsb' 0 2).toNat = c.addr.toNat % 4 := by simp
  simp only [List.all_eq_true, List.mem_range'_1, laneValid, haddr, Bool.and_eq_true, decide_eq_true_eq]
  constructor
  · intro h
    have hfirst := h lo (by omega)
    have hlast := h (lo + u - 1) (by omega)
    omega
  · intro h k hk
    omega

section
variable {p : DataCompare} {c : BusCycle} {j u : Nat}

theorem dataMatch_all_masked (hu : UnitSize p.size u) (hj : j < 4) (ha : unalignedCycle c = false)
    (hmask : ∀ k, j - j % u ≤ k → k < j - j % u + u → p.mask.getMsbD k = true) (free : Nat → Bool) :
    dataMatch p c free j = false := by
  have hall : (unitLanes p.size j).all (fun k => p.mask.getMsbD k) = true := by
    rw [unitLanes_eq hu hj, List.all_eq_true]
    exact fun k hk => hmask k (List.mem_range'_1.mp hk).1 (List.mem_range'_1.mp hk).2
  have hsize : (p.size == 0#2) = false := beq_eq_false_iff_ne.mpr hu.ne_zero
  simp [dataMatch, ha, hsize, unitMatch, hall]

/-- On a cycle that carries a unit none of whose bytes is masked, the comparator compares the unit. -/
theorem dataMatch_unmasked (hu : UnitSize p.size u) (hj : j < 4) (ha : unalignedCycle c = false)
    (hlo : c.addr.toNat % 4 ≤ j - j % u) (hhi : j - j % u + u ≤ c.addr.toNat % 4 + c.size)
    (hmask : ∀ k, j - j % u ≤ k → k < j - j % u + u → p.mask.getMsbD k = false) (free : Nat → Bool)
    {b v : BitVec (8 * u)} (hb : b = specField c.data (8 * (j - j % u)) (8 * u))
    (hv : v = specField p.value (8 * (j - j % u)) (8 * u)) :
    dataMatch p c free j = true ↔
      if p.signed then Compares p.ct b.toInt v.toInt else Compares p.ct b.toNat v.toNat := by
  obtain ⟨hpos, hfit⟩ := hu.fits hj
  have hlanes := unitLanes_eq hu hj
  have hsize : (p.size == 0#2) = false := beq_eq_false_iff_ne.mpr hu.ne_zero
  have hlen : decide ((unitLanes p.size j).length ≤ c.size) = true := by
    rw [hlanes, List.length_range', decide_eq_true_iff]
    omega
  have hvalid : (unitLanes p.size j).all (laneValid c) = true := by
    rw [hlanes]
    exact (all_laneValid_range' c _ hpos).mpr ⟨hlo, hhi⟩
  have hany : (unitLanes p.size j).any (fun k => p.mask.getMsbD k) = false := by
    rw [hlanes, List.any_eq_false]
    exact fun k hk => by simp [hmask k (List.mem_range'_1.mp hk).1 (List.mem_range'_1.mp hk).2]
  have hall : (unitLanes p.size j).all (fun k => p.mask.getMsbD k) = false := by
    rw [hlanes, List.all_eq_false]
    have hfirst := hmask _ (Nat.le_refl _) (Nat.lt_add_of_pos_right hpos)
    exact ⟨j - j % u, List.mem_range'_1.mpr (by omega), by simp [hfirst]⟩
  have hvalue : ∀ w, unitValue w (unitLanes p.size j) = (specField w (8 * (j - j % u)) (8 * u)).toNat := fun w => by
    rw [hlanes, unitValue_range' w _ hfit]
  have hmatch : unitMatch p c free (unitLanes p.size j) j =
      compareMatch p.ct (b.toNat == v.toNat) (unitLess p.signed (List.range' (j - j % u) u) b.toNat v.toNat) := by
    rw [unitMatch, hall, hany, hvalue, hvalue, ← hb, ← hv, hlanes]
    rfl
  have hactive : compareActive p.ct = true ∧ unitMatch p c free (unitLanes p.size j) j = true ↔
      unitMatch p c free (unitLanes p.size j) j = true := by
    refine and_iff_right_of_imp fun h => ?_
    rw [hmatch, compareMatch_eq, Bool.and_eq_true] at h
    exact h.1
  rw [← compareMatch_unit, ← hmatch, ← hactive]
  simp [dataMatch, hlen, ha, hsize, hvalid]

end

/-- Settles O47: the four clauses by the lanes of the unit, and the fields of LCTRL1 that program G and H. -/
theorem dataComparators : Obligations.DataComparators := by
  refine ⟨fun p c free j u lo hj hu hlo hsize ha => ?_, fun d => ?_⟩
  · subst hlo
    have hun := unalignedCycle_eq_false hsize ha
    have hlanes := unitLanes_eq hu hj
    refine ⟨fun h => ?_, fun h => ?_, fun h => dataMatch_all_masked hu hj hun h free,
      fun hlo hhi hmask b v hb hv => ?_⟩
    · exact dataMatch_smaller (by rwa [hlanes, List.length_range']) free
    · refine dataMatch_invalid hun (UnitSize.ne_zero hu) ?_ free
      rw [hlanes]
      exact Bool.eq_false_iff.mpr fun hvalid => h ((all_laneValid_range' c _ (UnitSize.fits hu hj).1).mp hvalid)
    · rw [Bool.eq_iff_iff, dataMatch_unmasked hu hj hun hlo hhi hmask free hb hv, Compares, Compares]
      cases p.ct.getMsbD 1 <;> cases p.ct.getMsbD 2 <;> cases p.signed <;>
        simp [BitVec.toInt_inj, BitVec.toNat_inj]
  · simp only [specField_eq]
    exact ⟨rfl, rfl⟩

/-! ### Load/store events and watchpoints (R269 to R271) -/

theorem eventSelect_iff (sel : BitVec 2) (x y : Bool) :
    eventSelect sel x y = true ↔
      if sel.getMsbD 0 = true then (if sel.getMsbD 1 = true then x = true ∨ y = true else x = true ∧ y = true)
      else if sel.getMsbD 1 = true then y = true else x = true := by
  revert sel x y; decide

theorem dataEvent_iff (sel : BitVec 2) (g h : Nat → Bool) :
    dataEvent sel g h = true ↔ ∃ j, j < 4 ∧ eventSelect sel (g j) (h j) = true := by
  have hlanes : allLanes = List.range 4 := rfl
  simp [dataEvent, hlanes]

/-- Settles O48: the event by the selection in each lane. -/
theorem dataEventsAreLaneWise : Obligations.DataEventsAreLaneWise := by
  intro sel g h
  simp only [dataEvent_iff, eventSelect_iff]
  cases sel.getMsbD 0 <;> cases sel.getMsbD 1 <;> simp

theorem iwpOf_iff (f : Flight) (sel : BitVec 2) :
    iwpOf f sel = true ↔
      if sel.getMsbD 0 = true then (if sel.getMsbD 1 = true then f.iwp3 = true else f.iwp2 = true)
      else if sel.getMsbD 1 = true then f.iwp1 = true else f.iwp0 = true := by
  have hsel : sel = 0#2 ∨ sel = 1#2 ∨ sel = 2#2 ∨ sel = 3#2 := by revert sel; decide
  rcases hsel with rfl | rfl | rfl | rfl <;> rfl

/-- The fields of the load/store watchpoint that begin at bit `q` of LCTRL2. -/
def lwpFieldsAt (w : Word) (q : Nat) : LwpFields :=
  ⟨w.getMsbD q, specField w (q + 1) 2, w.getMsbD (q + 3), specField w (q + 4) 2, w.getMsbD (q + 6),
    specField w (q + 7) 2, w.getMsbD (q + 9)⟩

theorem lctrl2Lw0_eq (w : Word) : lctrl2Lw0 w = lwpFieldsAt w 0 := by
  simp only [lwpFieldsAt, specField_eq]
  rfl

theorem lctrl2Lw1_eq (w : Word) : lctrl2Lw1 w = lwpFieldsAt w 10 := by
  simp only [lwpFieldsAt, specField_eq]
  rfl

/-- The watchpoint of one bus cycle by the fields that begin at bit `q`. -/
theorem lwpCycle_iff (d : Dev) {q : Nat} (hq : q + 10 ≤ 32) (f : Flight) (n : Nat) (c : BusCycle) :
    lwpCycle (lwpFieldsAt d.lctrl2 q) d f n c = true ↔ LwpMeets d q f n c := by
  have hfirst : ∀ a, a ≤ 8 → (specField d.lctrl2 (q + a) 2).getMsbD 0 = d.lctrl2.getMsbD (q + a) :=
    fun a ha => specField_getMsbD _ (by omega) (by omega)
  have hsecond : ∀ a, a ≤ 8 → (specField d.lctrl2 (q + a) 2).getMsbD 1 = d.lctrl2.getMsbD (q + (a + 1)) :=
    fun a ha => specField_getMsbD _ (by omega) (by omega)
  have himp : ∀ b x : Bool, (!b || x) = true ↔ (b = true → x = true) := by decide
  simp only [lwpCycle, lwpFieldsAt, LwpMeets, LwpRule, Bool.and_eq_true, and_assoc, himp]
  refine and_congr_right' (and_congr (imp_congr_right fun _ => ?_) (and_congr (imp_congr_right fun _ => ?_)
    (imp_congr_right fun _ => ?_)))
  · rw [iwpOf_iff, hfirst 1 (by omega), hsecond 1 (by omega)]
    cases d.lctrl2.getMsbD (q + 1) <;> cases d.lctrl2.getMsbD (q + (1 + 1)) <;> rfl
  · rw [eventSelect_iff, hfirst 4 (by omega), hsecond 4 (by omega)]
    cases d.lctrl2.getMsbD (q + 4) <;> cases d.lctrl2.getMsbD (q + (4 + 1)) <;> rfl
  · rw [dataEvent_iff]
    simp only [eventSelect_iff, hfirst 7 (by omega), hsecond 7 (by omega)]
    cases d.lctrl2.getMsbD (q + 7) <;> cases d.lctrl2.getMsbD (q + (7 + 1)) <;> rfl

/-- A watchpoint is asserted on some cycle exactly if some cycle meets its rule; the free values of each cycle begin
after those of the one before (log 16). -/
theorem watchCycles_any {d : Dev} {f : Flight} {lwp : WatchedCycle → Bool} {meets : Nat → BusCycle → Prop}
    (h : ∀ n c, lwp ⟨c.addr, lwpCycle (lctrl2Lw0 d.lctrl2) d f n c, lwpCycle (lctrl2Lw1 d.lctrl2) d f n c⟩ = true ↔
      meets n c) (n : Nat) (cs : List BusCycle) :
    (watchCycles d f n cs).any lwp = true ↔ ∃ k c, cs[k]? = some c ∧ meets (n + 10 * k) c := by
  induction cs generalizing n with
  | nil => simp [watchCycles]
  | cons c cs ih =>
    rw [watchCycles, List.any_cons, Bool.or_eq_true, h, ih]
    constructor
    · rintro (hc | ⟨k, c', hk, hc'⟩)
      · exact ⟨0, c, rfl, hc⟩
      · refine ⟨k + 1, c', hk, ?_⟩
        rwa [Nat.mul_succ, Nat.add_comm (10 * k), ← Nat.add_assoc]
    · rintro ⟨_ | k, c', hk, hc'⟩
      · cases hk
        exact .inl hc'
      · refine .inr ⟨k, c', hk, ?_⟩
        rwa [Nat.mul_succ, Nat.add_comm (10 * k), ← Nat.add_assoc] at hc'

/-- Settles O49: by induction on the bus cycles, each cycle by the fields of its watchpoint. -/
theorem loadStoreWatchpoints : Obligations.LoadStoreWatchpoints := by
  intro d f n cs
  have h0 : ∀ n c, lwpCycle (lctrl2Lw0 d.lctrl2) d f n c = true ↔ LwpMeets d 0 f n c := fun n c => by
    rw [lctrl2Lw0_eq, lwpCycle_iff d (by omega)]
  have h1 : ∀ n c, lwpCycle (lctrl2Lw1 d.lctrl2) d f n c = true ↔ LwpMeets d 10 f n c := fun n c => by
    rw [lctrl2Lw1_eq, lwpCycle_iff d (by omega)]
  exact ⟨watchCycles_any h0 n cs, watchCycles_any h1 n cs⟩

/-! ### Trap enables and the load/store breakpoint (R243, R272, R273, R276) -/

/-- The cycle generates the load/store breakpoint. -/
def WatchedCycle.breaks (brk0 brk1 : Bool) (c : WatchedCycle) : Bool := (c.lwp0 && brk0) || (c.lwp1 && brk1)

theorem breakAddress_eq_find (brk0 brk1 : Bool) (cs : List WatchedCycle) :
    breakAddress brk0 brk1 cs = (cs.find? (WatchedCycle.breaks brk0 brk1)).map WatchedCycle.addr := by
  induction cs with
  | nil => rfl
  | cons c cs ih =>
    rw [breakAddress, ih, List.find?_cons, WatchedCycle.breaks]
    cases (c.lwp0 && brk0) || (c.lwp1 && brk1) <;> rfl

/-- There is a breakpoint exactly if an enabled watchpoint is asserted on some cycle. -/
theorem breakAddress_isSome (brk0 brk1 : Bool) (cs : List WatchedCycle) :
    (breakAddress brk0 brk1 cs).isSome = ((lwp0Of cs && brk0) || (lwp1Of cs && brk1)) := by
  rw [breakAddress_eq_find, Option.isSome_map, List.isSome_find?]
  induction cs with
  | nil => rfl
  | cons c cs ih =>
    have h0 : lwp0Of (c :: cs) = (c.lwp0 || lwp0Of cs) := rfl
    have h1 : lwp1Of (c :: cs) = (c.lwp1 || lwp1Of cs) := rfl
    rw [List.any_cons, ih, h0, h1, WatchedCycle.breaks, Bool.and_or_distrib_right, Bool.and_or_distrib_right]
    ac_rfl

/-- Its address is that of the first such cycle (R276, D34). -/
theorem breakAddress_eq_some {brk0 brk1 : Bool} {cs : List WatchedCycle} {a : Word} :
    breakAddress brk0 brk1 cs = some a ↔
      ∃ (k : Nat) (c : WatchedCycle), cs[k]? = some c ∧ c.breaks brk0 brk1 = true ∧ c.addr = a ∧
        ∀ (j : Nat) (e : WatchedCycle), j < k → cs[j]? = some e → e.breaks brk0 brk1 = false := by
  rw [breakAddress_eq_find, Option.map_eq_some_iff]
  constructor
  · rintro ⟨c, hc, rfl⟩
    obtain ⟨hbrk, k, hk, rfl, hbefore⟩ := List.find?_eq_some_iff_getElem.mp hc
    refine ⟨k, cs[k], List.getElem?_eq_getElem hk, hbrk, rfl, fun j e hj he => ?_⟩
    obtain ⟨_, rfl⟩ := List.getElem?_eq_some_iff.mp he
    exact Bool.eq_false_of_not_eq_true' (hbefore j hj)
  · rintro ⟨k, c, hk, hbrk, rfl, hbefore⟩
    obtain ⟨hlt, rfl⟩ := List.getElem?_eq_some_iff.mp hk
    refine ⟨cs[k], List.find?_eq_some_iff_getElem.mpr ⟨hbrk, k, hlt, rfl, fun j hj => ?_⟩, rfl⟩
    rw [hbefore j _ hj (List.getElem?_eq_getElem (hj.trans hlt))]
    rfl

/-- A counter whose source is 00 counts nothing, so it makes no load/store breakpoint. -/
theorem lwpBreaks_inactive {s t : State} (ha : s.dev.counta.cntc = 0#2) (hb : s.dev.countb.cntc = 0#2)
    (cs : List WatchedCycle) :
    lwp0Breaks s t cs = loadStoreTrapEnable s 0 ∧ lwp1Breaks s t cs = loadStoreTrapEnable s 1 := by
  simp [lwp0Breaks, lwp1Breaks, counterBreak, counterExpires, ha, hb]

theorem recognised_iff (s : State) : recognised s = true ↔ s.dev.lctrl2.getMsbD 20 = true ∨ s.cpu.msr.ri = true := by
  simp [recognised, lctrl2Brknomsk]

/-- Settles O50: the enables by their bits, and the break address of the first cycle that breaks. -/
theorem trapEnablesAreOred : Obligations.TrapEnablesAreOred := by
  intro s t cs ien len h0 h1 h2 h3 hl0 hl1
  refine ⟨h0.symm, h1.symm, h2.symm, h3.symm, hl0.symm, hl1.symm, ?_, fun hrec ha hb => ?_⟩
  · rw [h0, h1, h2, h3]
    rfl
  · obtain ⟨hbrk0, hbrk1⟩ := lwpBreaks_inactive (t := t) ha hb cs
    have hbreak : loadStoreBreak s t cs = breakAddress (len 0) (len 1) cs := by
      rw [loadStoreBreak, if_pos ((recognised_iff s).mpr hrec), hbrk0, hbrk1, hl0, hl1]
      rfl
    rw [hbreak]
    exact ⟨breakAddress_isSome _ _ cs, fun a => breakAddress_eq_some⟩

end Sys2Proof.Machine
end

section
/-! SUPPORT. Breakpoints, counters and retirement (41_watchpoints_breakpoints.md R243 to R291): what an instruction
leaves of the registers they use, what an instruction breakpoint does, and what a retirement does, each said once. -/

namespace Sys2Proof.Machine

/-! ### Exceptions: causes, SRR0 and debug mode -/

theorem foldl_recordCause_dev (es : List Event) (s : State) :
    (es.foldl (fun t e => recordCause e t) s).dev =
      { s.dev with ecr := es.foldl (fun b e => b ||| eventMask e) s.dev.ecr } := by
  induction es generalizing s with
  | nil => rfl
  | cons e es ih => exact ih (recordCause e s)

theorem foldl_recordInDebug_dev (es : List Event) (s : State) :
    (es.foldl (fun t e => recordInDebug e t) s).dev =
      { s.dev with ecr := es.foldl (fun b e => b ||| eventMask e) s.dev.ecr } := by
  induction es generalizing s with
  | nil => rfl
  | cons e es ih => exact ih (recordInDebug e s)

/-- Taking events sets their cause bits, and changes no other development support register (R450, R460). -/
theorem raiseAll_dev (e : Event) (es : List Event) (resume : Word) (s : State) :
    (raiseAll e es resume s).dev =
      { s.dev with ecr := (e :: es).foldl (fun b x => b ||| eventMask x) s.dev.ecr } := by
  unfold raiseAll routeEvent
  split
  · exact foldl_recordInDebug_dev (e :: es) s
  · rw [← foldl_recordCause_dev (e :: es) s, markExcepted_dev]
    split
    · exact enterDebug_dev _ _ _
    · exact regularException_dev _ _ _

theorem raise_dev (e : Event) (resume : Word) (s : State) :
    (raise e resume s).dev = { s.dev with ecr := s.dev.ecr ||| eventMask e } := raiseAll_dev e [] resume s

@[simp] theorem raiseAll_pins (e : Event) (es : List Event) (resume : Word) (s : State) :
    (raiseAll e es resume s).trace.pins = s.trace.pins := by
  rcases raiseAll_cases e es resume s with ⟨_, b, p, h⟩ | ⟨_, _, _, e', a, b, z, h⟩ | ⟨_, _, e', a, b, z, h⟩ <;> rw [h]
  · rfl
  · rfl
  · simp [regularException]

@[simp] theorem raise_pins (e : Event) (resume : Word) (s : State) : (raise e resume s).trace.pins = s.trace.pins :=
  raiseAll_pins e [] resume s

@[simp] theorem raiseAll_flight (e : Event) (es : List Event) (resume : Word) (s : State) :
    (raiseAll e es resume s).cpu.flight = { s.cpu.flight with excepted := true } := by
  rcases raiseAll_cases e es resume s with ⟨_, b, p, h⟩ | ⟨_, _, _, e', a, b, z, h⟩ | ⟨_, _, e', a, b, z, h⟩ <;>
    simp [h, markExcepted]

/-- Outside debug mode an event goes to debug mode or to its handler; both save its SRR0 and leave the port alone. -/
theorem raise_outside {s : State} (h : s.mode.dm = false) (e : Event) (resume : Word) :
    (raise e resume s).cpu.srr0 = srr0For e resume ∧ (raise e resume s).port = s.port ∧
      (raise e resume s).mode.dm = (eventEnabled e s && s.mode.dme) := by
  cases he : eventEnabled e s with
  | false =>
    rw [raise_regular h (.inl he)]
    simp [h]
  | true =>
    cases hd : s.mode.dme with
    | false =>
      rw [raise_regular h (.inr hd)]
      simp [h]
    | true =>
      rw [raise_debug h he hd]
      simp

theorem and_twoPow_bne (w : Word) {k : Nat} (hk : k < 32) : (w &&& BitVec.twoPow 32 k != 0#32) = w.getLsbD k := by
  have hpow : BitVec.twoPow 32 k ≠ 0#32 := fun h => by simpa [hk] using congrArg (fun v => v.getLsbD k) h
  rw [BitVec.and_twoPow]
  cases w.getLsbD k <;> simp [hpow]

/-- IBRKE is bit 29 of DER, LBRKE bit 28 (R36). -/
theorem breakpoints_enabled (s : State) :
    eventEnabled .instrBreak s = s.dev.der.getMsbD 29 ∧ eventEnabled .loadStoreBreak s = s.dev.der.getMsbD 28 :=
  ⟨and_twoPow_bne s.dev.der (k := 2) (by omega), and_twoPow_bne s.dev.der (k := 3) (by omega)⟩

/-! ### What an instruction leaves -/

/-- COUNTA, COUNTB, ICTRL and BAR hold what they held, each unless the instruction is an `mtspr` of it. -/
structure BreakRegsKept (i : Option CpuInstr) (d e : Dev) : Prop where
  counta : (∀ rs, i ≠ some (.table (.mtsprCounta rs))) → e.counta = d.counta
  countb : (∀ rs, i ≠ some (.table (.mtsprCountb rs))) → e.countb = d.countb
  ictrl : (∀ rs, i ≠ some (.table (.mtsprIctrl rs))) → e.ictrl = d.ictrl
  bar : (∀ rs, i ≠ some (.table (.mtsprBar rs))) → e.bar = d.bar

theorem BreakRegsKept.of_ecr {i : Option CpuInstr} {d e : Dev} {b : Word} (h : e = { d with ecr := b }) :
    BreakRegsKept i d e := by
  subst h
  exact ⟨fun _ => rfl, fun _ => rfl, fun _ => rfl, fun _ => rfl⟩

theorem BreakRegsKept.of_eq {i : Option CpuInstr} {d e : Dev} (h : e = d) : BreakRegsKept i d e :=
  .of_ecr (b := d.ecr) h

theorem BreakRegsKept.trans {i : Option CpuInstr} {d e f : Dev} (h : BreakRegsKept i d e) (h' : BreakRegsKept i e f) :
    BreakRegsKept i d f where
  counta hi := (h'.counta hi).trans (h.counta hi)
  countb hi := (h'.countb hi).trans (h.countb hi)
  ictrl hi := (h'.ictrl hi).trans (h.ictrl hi)
  bar hi := (h'.bar hi).trans (h.bar hi)

/-- The write of a register by its own `mtspr`. -/
theorem breakRegsKept_sprWritten (rs : Reg) (n : Spr) (v : Word) (d : Dev) :
    BreakRegsKept (some (.table (.mtspr rs n))) d (sprWritten n v d) := by
  cases n with
  | counta => exact ⟨fun h => absurd rfl (h rs), fun _ => rfl, fun _ => rfl, fun _ => rfl⟩
  | countb => exact ⟨fun _ => rfl, fun h => absurd rfl (h rs), fun _ => rfl, fun _ => rfl⟩
  | ictrl => exact ⟨fun _ => rfl, fun _ => rfl, fun h => absurd rfl (h rs), fun _ => rfl⟩
  | bar => exact ⟨fun _ => rfl, fun _ => rfl, fun _ => rfl, fun h => absurd rfl (h rs)⟩
  | _ => exact ⟨fun _ => rfl, fun _ => rfl, fun _ => rfl, fun _ => rfl⟩

/-- What an instruction leaves of the breakpoint registers and of its own bookkeeping: it may add bus cycles or take an
exception, but the watchpoints of its fetch stand. -/
structure WatchKept (i : CpuInstr) (s t : State) : Prop where
  dev : BreakRegsKept (some i) s.dev t.dev
  flight : ∃ cs b, t.cpu.flight = { s.cpu.flight with cycles := cs, excepted := b }

theorem WatchKept.of_ecr {i : CpuInstr} {s t : State} {b : Word} (hd : t.dev = { s.dev with ecr := b })
    (hf : t.cpu.flight = s.cpu.flight) : WatchKept i s t := ⟨.of_ecr hd, _, _, hf⟩

theorem WatchKept.of_eq {i : CpuInstr} {s t : State} (hd : t.dev = s.dev) (hf : t.cpu.flight = s.cpu.flight) :
    WatchKept i s t := .of_ecr (b := s.dev.ecr) hd hf

theorem watchKept_programException (i : CpuInstr) (s : State) : WatchKept i s (programException s) :=
  ⟨.of_ecr (raise_dev _ _ s), _, _, raiseAll_flight _ _ _ s⟩

theorem returnFromException_dev (s : State) : (returnFromException s).dev = s.dev := by
  unfold returnFromException
  split
  · split <;> simp
  · simp

theorem returnFromException_flight (s : State) : (returnFromException s).cpu.flight = s.cpu.flight := by
  unfold returnFromException
  split
  · split <;> simp
  · simp

theorem watchKept_mfspr {n : Spr} {rd : Reg} {s t : State} (h : exec (.mfspr rd n) s = .next t) :
    WatchKept (.table (.mfspr rd n)) s t := by
  by_cases hn : n = .dpdr
  · subst hn
    simp only [Instr.mfspr, exec, execMfsprDpdr] at h
    split at h
    · cases h; exact watchKept_programException _ s
    · split at h <;> (cases h; exact .of_eq (by simp) (by simp))
  · obtain ⟨v, k, he⟩ := exec_mfspr hn rd s
    rw [he] at h
    split at h <;> cases h
    · exact watchKept_programException _ s
    · split
      · have hclear : ∃ b, (clearEcrOnRead s).dev = { s.dev with ecr := b } := by
          unfold clearEcrOnRead
          split
          · exact ⟨_, rfl⟩
          · exact ⟨s.dev.ecr, rfl⟩
        obtain ⟨b, hb⟩ := hclear
        exact .of_ecr (b := b) (by simp [hb]) (by simp)
      · exact .of_eq (by simp) (by simp)

theorem watchKept_mtspr {n : Spr} {rs : Reg} {s t : State} (h : exec (.mtspr rs n) s = .next t) :
    WatchKept (.table (.mtspr rs n)) s t := by
  rw [exec_mtspr] at h
  split at h
  · cases h; exact watchKept_programException _ s
  · split at h <;> cases h
    · exact .of_eq (by simp) (by rw [mtsprComplete_cpu])
    · refine ⟨?_, _, _, by rw [mtsprComplete_cpu, writtenState_cpu]⟩
      rw [mtsprComplete_dev, writtenState_dev]
      exact breakRegsKept_sprWritten rs n _ s.dev

theorem watchKept_mtmsr {rs : Reg} {s t : State} (h : exec (.mtmsr rs) s = .next t) :
    WatchKept (.table (.mtmsr rs)) s t := by
  simp only [exec, execMtmsr] at h
  split at h
  · cases h; exact watchKept_programException _ s
  · split at h <;> cases h
    exact .of_eq (by simp) (by simp)

theorem watchKept_rfi {s t : State} (h : exec .rfi s = .next t) : WatchKept (.table .rfi) s t := by
  simp only [exec, execRfi] at h
  split at h <;> cases h
  · exact watchKept_programException _ s
  · exact .of_eq (returnFromException_dev s) (returnFromException_flight s)

theorem watchKept_moveException {i : CpuInstr} {draw : State → State} (hd : ∀ u, (draw u).dev = u.dev)
    (hf : ∀ u, (draw u).cpu.flight = u.cpu.flight) (s : State) : WatchKept i s (moveException draw s) := by
  have hp := watchKept_programException i s
  unfold moveException
  split
  · obtain ⟨hdev, cs, b, hflight⟩ := hp
    exact ⟨hdev.trans (.of_eq (hd _)), cs, b, (hf _).trans hflight⟩
  · exact hp

theorem watchKept_exec_word {w : Word} {j : Instr} {s t : State} (hj : decodeWord w = .ok j) (h : exec j s = .next t) :
    WatchKept (.table j) s t := by
  rcases decodeWord_cases hj with ⟨n, r, rfl⟩ | ⟨n, r, rfl⟩ | ⟨r, rfl⟩ | rfl | rfl | rfl | ⟨rs, d, ra, rfl⟩
  · exact watchKept_mfspr h
  · exact watchKept_mtspr h
  · exact watchKept_mtmsr h
  · cases h; exact .of_eq (by simp) (by simp)
  · exact watchKept_rfi h
  · cases h; exact .of_eq (by simp) (by simp)
  · cases h; exact ⟨.of_eq (by simp), _, _, (completeSequential_flight _).trans rfl⟩

/-- What the CPU executes for a word. -/
theorem watchKept_execCpu {w : Word} {i : CpuInstr} {s t : State} (hi : decodeCpu w = some i)
    (h : execCpu i s = .next t) : WatchKept i s t := by
  rcases execCpu_next h with ⟨j, rfl, hj⟩ | ⟨rd, n, rfl, rfl⟩ | ⟨n, rs, rfl, rfl⟩
  · rcases decodeCpu_cases hi with ⟨j', hw, hjj⟩ | ⟨_, _, hne⟩ | ⟨_, _, hne⟩
    · cases hjj; exact watchKept_exec_word hw hj
    · cases hne
    · cases hne
  · split
    · exact watchKept_moveException (draw := fun u => writeGpr rd (freeWord 0 u) u) (fun _ => rfl) (fun _ => rfl) s
    · exact .of_eq (by simp) (by simp)
  · split
    · exact watchKept_moveException (fun _ => by cases n <;> rfl) (fun _ => by cases n <;> rfl) s
    · exact .of_eq (by cases n <;> simp [writeSave]) (by cases n <;> simp [writeSave])

/-! ### The instruction breakpoint (R243, R244, R261, R279) -/

/-- Only an `mtspr ICTRL` makes a breakpoint unpredictable (U1). -/
theorem unpredictableBreak_eq_false {i : CpuInstr} (hi : ∀ rs, i ≠ .table (.mtsprIctrl rs)) (s : State) :
    unpredictableBreak (some i) s = false := by
  have hw : writesIfm (some i) s = false := by
    unfold writesIfm
    split
    · next rs h => exact absurd (Option.some.inj h) (hi rs)
    · rfl
  rw [unpredictableBreak, hw, Bool.and_false]

theorem settleIfm_predictable {i : CpuInstr} {s : State} (h : unpredictableBreak (some i) s = false) (t : State) :
    settleIfm (some i) s t = t := by
  simp [settleIfm, h]

/-- A counter that is not active makes no instruction breakpoint, nor one that counts load/store watchpoints. -/
theorem counts_instr_eq_false {recog : Bool} {c : Counter} (h : c.cntc ≠ 0b01#2) (iwp : Bool) :
    counts recog c iwp false = false := by
  simp [counts, h]

/-- An event that is not counted, or counted above one, makes no breakpoint of a counter. -/
theorem counterBreak_eq_false {counted : Bool} {c : Counter} (h : counted = false ∨ 1#16 < c.cntv) (free : Bool) :
    counterBreak counted c free = false := by
  rcases h with rfl | h
  · simp [counterBreak, counterExpires]
  · have hone : c.cntv ≠ 1#16 := by rintro hc; rw [hc] at h; exact absurd h (by decide)
    have hzero : c.cntv ≠ 0#16 := by rintro hc; rw [hc] at h; exact absurd h (by decide)
    simp [counterBreak, counterExpires, hone, hzero]

theorem counterInstrBreak_eq_false {s : State} (ha : instrCountA s = false ∨ 1#16 < s.dev.counta.cntv)
    (hb : instrCountB s = false ∨ 1#16 < s.dev.countb.cntv) : counterInstrBreak s = false := by
  rw [counterInstrBreak, counterBreak_eq_false ha, counterBreak_eq_false hb, Bool.or_self]

/-- What stops an instruction for certain stops it whatever the open values are. -/
theorem instrBreakTaken_of_certain {i : CpuInstr} (hi : ∀ rs, i ≠ .table (.mtsprIctrl rs)) {s : State}
    (h : certainBreak s = true) : instrBreakTaken (some i) s = true := by
  simp only [certainBreak, Bool.or_eq_true, or_assoc] at h
  simp only [instrBreakTaken, unpredictableBreak_eq_false hi, Bool.false_eq_true, if_false, counterInstrBreak,
    counterBreak, Bool.or_eq_true]
  rcases h with h | h | h
  · exact .inl h
  · exact .inr (.inl (.inl h))
  · exact .inr (.inr (.inl h))

theorem instrBreakTaken_eq_false {i : CpuInstr} (hi : ∀ rs, i ≠ .table (.mtsprIctrl rs)) {s : State}
    (hd : directBreak s = false ∨ ictrlIfm s.dev.ictrl = true) (hc : counterInstrBreak s = false) :
    instrBreakTaken (some i) s = false := by
  rw [instrBreakTaken, unpredictableBreak_eq_false hi, if_neg Bool.false_ne_true, hc]
  rcases hd with hd | hd <;> simp [hd]

/-- Internal breakpoints that are not recognised are lost (R250, R251). -/
theorem instrBreakTaken_masked (i : Option CpuInstr) {s : State} (h : recognised s = false) :
    instrBreakTaken i s = false ∧ unpredictableBreak i s = false := by
  have hd : directBreak s = false := by rw [directBreak, h, Bool.false_and]
  have hc : counterInstrBreak s = false :=
    counterInstrBreak_eq_false (.inl (by simp [instrCountA, counts, h])) (.inl (by simp [instrCountB, counts, h]))
  simp [instrBreakTaken, unpredictableBreak, hd, hc]

theorem passBreak_noMatch {s : State} (h : directBreak s = false) : passBreak s = spend breakDraws s := by
  simp [passBreak, h]

/-- A match that is ignored clears IFM and changes nothing else (R262). -/
theorem passBreak_match {s : State} (h : directBreak s = true) :
    passBreak s = spend breakDraws { s with dev.ictrl := s.dev.ictrl &&& 0xFFFFFFF7#32 } := by
  have hclear : setIfm false s.dev.ictrl = s.dev.ictrl &&& 0xFFFFFFF7#32 := BitVec.or_zero
  simp [passBreak, h, hclear]

/-- What an instruction breakpoint taken for certain does: its cause bit and its SRR0, in debug mode or in its handler,
and no counter changes (R244, R279). -/
theorem takeInstrBreak_certain {i : CpuInstr} (hi : ∀ rs, i ≠ .table (.mtsprIctrl rs)) {s : State}
    (hdm : s.mode.dm = false) (h : certainBreak s = true) :
    (takeInstrBreak (some i) s).dev = { s.dev with ecr := s.dev.ecr ||| 0x00000004#32 } ∧
      (takeInstrBreak (some i) s).cpu.srr0 = s.cpu.pc ∧ (takeInstrBreak (some i) s).cpu.gpr = s.cpu.gpr ∧
      (takeInstrBreak (some i) s).port = s.port ∧
      (takeInstrBreak (some i) s).mode.dm = (s.dev.der.getMsbD 29 && s.mode.dme) := by
  have hcount : ∀ counted own free c, countBroken true counted own free c = c := fun _ _ _ _ => rfl
  simp only [takeInstrBreak, settleIfm_predictable (unpredictableBreak_eq_false hi s), h, hcount]
  generalize hb : spend breakDraws _ = b
  have hbdm : b.mode.dm = false := by rw [← hb]; exact hdm
  obtain ⟨hsrr0, hport, hdebug⟩ := raise_outside hbdm .instrBreak s.cpu.pc
  rw [raise_dev, raise_gpr, hsrr0, hport, hdebug, (breakpoints_enabled b).1, ← hb]
  exact ⟨rfl, rfl, rfl, rfl, rfl⟩

/-! ### Retirement (R242, R272, R273, R278) -/

@[simp] theorem reportRetired_cpu (i : CpuInstr) (s t : State) (cs : List WatchedCycle) :
    (reportRetired i s t cs).cpu = t.cpu := rfl

@[simp] theorem reportRetired_mode (i : CpuInstr) (s t : State) (cs : List WatchedCycle) :
    (reportRetired i s t cs).mode = t.mode := rfl

/-- The cause bits that the breakpoint and the trace event after an instruction set. -/
def afterCauses (brk : Option Word) (trace : Bool) : Word :=
  (if brk.isSome then eventMask .loadStoreBreak else 0#32) ||| (if trace then eventMask .trace else 0#32)

theorem afterCauses_none : afterCauses none false = 0#32 := BitVec.or_zero

theorem afterCauses_break (a : Word) : afterCauses (some a) false = 0x00000008#32 := BitVec.or_zero

/-- What follows a completed instruction latches the break address and sets cause bits (R276, R442). -/
theorem raiseAfter_dev (brk : Option Word) (trace : Bool) (t : State) :
    (raiseAfter brk trace t).dev =
      { t.dev with ecr := t.dev.ecr ||| afterCauses brk trace, bar := brk.getD t.dev.bar } := by
  cases brk <;> cases trace <;> simp [raiseAfter, raise_dev, raiseAll_dev, afterCauses, BitVec.or_assoc]

@[simp] theorem raiseAfter_gpr (brk : Option Word) (trace : Bool) (t : State) :
    (raiseAfter brk trace t).cpu.gpr = t.cpu.gpr := by
  cases brk <;> cases trace <;> simp [raiseAfter]

@[simp] theorem raiseAfter_dar (brk : Option Word) (trace : Bool) (t : State) :
    (raiseAfter brk trace t).cpu.dar = t.cpu.dar := by
  cases brk <;> cases trace <;> simp [raiseAfter]

@[simp] theorem raiseAfter_dsisr (brk : Option Word) (trace : Bool) (t : State) :
    (raiseAfter brk trace t).cpu.dsisr = t.cpu.dsisr := by
  cases brk <;> cases trace <;> simp [raiseAfter]

/-- A load/store breakpoint saves the address of the next instruction, in debug mode or in its handler (R273, R450). -/
theorem raiseAfter_break {t : State} (h : t.mode.dm = false) (a : Word) :
    (raiseAfter (some a) false t).cpu.srr0 = t.cpu.pc ∧
      (raiseAfter (some a) false t).mode.dm = (t.dev.der.getMsbD 28 && t.mode.dme) := by
  obtain ⟨hsrr0, _, hdebug⟩ := raise_outside (s := { t with dev.bar := a }) h .loadStoreBreak t.cpu.pc
  rw [(breakpoints_enabled _).2] at hdebug
  exact ⟨hsrr0, hdebug⟩

@[simp] theorem raiseAfter_pins (brk : Option Word) (trace : Bool) (t : State) :
    (raiseAfter brk trace t).trace.pins = t.trace.pins := by
  cases brk <;> cases trace <;> simp [raiseAfter]

theorem retire_excepted {i : CpuInstr} {s t : State} (h : t.cpu.flight.excepted = true) : retire i s t = t := by
  simp [retire, h]

/-- The trace event of a completed instruction. -/
def traceFollows (i : CpuInstr) (s t : State) : Bool := traced (freeBool (retireBase (watched s t) + 4) t) i s

theorem traceFollows_off {s : State} (hse : s.cpu.msr.se = false) (hbe : s.cpu.msr.be = false) (i : CpuInstr)
    (t : State) : traceFollows i s t = false := by
  simp [traceFollows, traced, traceMode, hse, hbe]

theorem retire_completed {i : CpuInstr} {s t : State} (h : t.cpu.flight.excepted = false) :
    retire i s t = raiseAfter (loadStoreBreak s t (watched s t)) (traceFollows i s t)
      (reportRetired i s t (watched s t)) := by
  simp [retire, h, traceFollows]

/-- Nothing follows an instruction with no breakpoint in no trace mode. -/
theorem retire_quiet {i : CpuInstr} {s t : State} (h : t.cpu.flight.excepted = false)
    (hbrk : loadStoreBreak s t (watched s t) = none) (hse : s.cpu.msr.se = false) (hbe : s.cpu.msr.be = false) :
    retire i s t = reportRetired i s t (watched s t) := by
  rw [retire_completed h, hbrk, traceFollows_off hse hbe]
  rfl

@[simp] theorem retire_gpr (i : CpuInstr) (s t : State) : (retire i s t).cpu.gpr = t.cpu.gpr := by
  unfold retire
  split <;> simp

@[simp] theorem retire_dar (i : CpuInstr) (s t : State) : (retire i s t).cpu.dar = t.cpu.dar := by
  unfold retire
  split <;> simp

@[simp] theorem retire_dsisr (i : CpuInstr) (s t : State) : (retire i s t).cpu.dsisr = t.cpu.dsisr := by
  unfold retire
  split <;> simp

/-- COUNTA after the retirement of an instruction. -/
def retiredA (i : CpuInstr) (s t : State) : Counter :=
  countRetired (countsA s (watched s t)) (altersCounta i) (freeHalf (retireBase (watched s t) + 2) t) t.dev.counta

/-- COUNTB after the retirement of an instruction. -/
def retiredB (i : CpuInstr) (s t : State) : Counter :=
  countRetired (countsB s (watched s t)) (altersCountb i) (freeHalf (retireBase (watched s t) + 3) t) t.dev.countb

/-- A counter that is not active counts nothing. -/
theorem counts_inactive {c : Counter} (hc : c.cntc = 0#2) (recog iwp lwp : Bool) : counts recog c iwp lwp = false := by
  simp [counts, hc]

theorem retiredA_inactive {i : CpuInstr} {s t : State} (h : s.dev.counta.cntc = 0#2) :
    retiredA i (fetched s) t = t.dev.counta := by
  have hcounts : countsA (fetched s) (watched (fetched s) t) = false := counts_inactive h _ _ _
  rw [retiredA, hcounts]
  rfl

theorem retiredB_inactive {i : CpuInstr} {s t : State} (h : s.dev.countb.cntc = 0#2) :
    retiredB i (fetched s) t = t.dev.countb := by
  have hcounts : countsB (fetched s) (watched (fetched s) t) = false := counts_inactive h _ _ _
  rw [retiredB, hcounts]
  rfl

theorem reportRetired_dev (i : CpuInstr) (s t : State) :
    (reportRetired i s t (watched s t)).dev = { t.dev with counta := retiredA i s t, countb := retiredB i s t } := rfl

/-- The development support registers after the retirement of a completed instruction. -/
theorem retire_dev {i : CpuInstr} {s t : State} (h : t.cpu.flight.excepted = false) :
    (retire i s t).dev =
      { t.dev with
        counta := retiredA i s t
        countb := retiredB i s t
        ecr := t.dev.ecr ||| afterCauses (loadStoreBreak s t (watched s t)) (traceFollows i s t)
        bar := (loadStoreBreak s t (watched s t)).getD t.dev.bar } := by
  rw [retire_completed h, raiseAfter_dev, reportRetired_dev]

@[simp] theorem retire_ictrl (i : CpuInstr) (s t : State) : (retire i s t).dev.ictrl = t.dev.ictrl := by
  cases h : t.cpu.flight.excepted with
  | true => rw [retire_excepted h]
  | false => rw [retire_dev h]

/-- A retirement never sets IBRK, bit 29 of the ECR. -/
theorem retire_ibrk (i : CpuInstr) (s t : State) :
    (retire i s t).dev.ecr.getMsbD 29 = t.dev.ecr.getMsbD 29 := by
  have hcauses : ∀ brk trace, (afterCauses brk trace).getMsbD 29 = false := fun brk trace => by
    rw [afterCauses]
    generalize brk.isSome = b
    revert b trace
    decide
  cases h : t.cpu.flight.excepted with
  | true => rw [retire_excepted h]
  | false => rw [retire_dev h, BitVec.getMsbD_or, hcauses, Bool.or_false]

/-- A counted event takes one from a count that is not zero (R278). -/
theorem countRetired_counted {c : Counter} (h : c.cntv ≠ 0#16) (free : BitVec 16) :
    countRetired true false free c = ⟨c.cntv - 1#16, c.cntc⟩ := by
  simp [countRetired, h]

theorem watched_noCycles {s t : State} (h : t.cpu.flight.cycles = []) : watched s t = [] := by
  rw [watched, h]
  rfl

theorem loadStoreBreak_noCycles {s t : State} (h : t.cpu.flight.cycles = []) :
    loadStoreBreak s t (watched s t) = none := by
  rw [watched_noCycles h, loadStoreBreak]
  split <;> rfl

end Sys2Proof.Machine
end

section
/-! SUPPORT and PROOFS. The steps with breakpoints (41_watchpoints_breakpoints.md R243 to R291): a fetched instruction
is stopped, or executed and retired; a store is one bus cycle that its watchpoints see; a step in debug mode reports and
counts nothing. -/

namespace Sys2Proof.Machine

/-! ### Steps that fetch -/

section
variable {s : State} {w : Word} {i : CpuInstr}

theorem Fetches.outside (hf : Fetches s w i) : s.mode.dm = false := by
  obtain ⟨_, _, hdm, _⟩ := hf
  exact hdm

theorem Fetches.decodes (hf : Fetches s w i) : decodeCpu w = some i := by
  obtain ⟨_, _, _, _, _, _, _, _, hdec⟩ := hf
  exact hdec

/-- A step that fetches takes the instruction breakpoint, or executes and retires the instruction. -/
theorem Fetches.step_cases (hf : Fetches s w i) :
    step s =
      if instrBreakTaken (some i) (fetched s) then .next (finish (fetched s) (takeInstrBreak (some i) (fetched s)))
      else afterExec i (fetched s) (execCpu i (passBreak (fetched s))) := by
  have hstep := hf.step_eq
  obtain ⟨_, _, _, _, _, _, hexc, _, _⟩ := hf
  have hexc' : (fetched s).ext.cpuExc = none := hexc
  rw [hstep, runFetched, hexc']

theorem Fetches.step_executes (hf : Fetches s w i) (hbrk : instrBreakTaken (some i) (fetched s) = false)
    (hpre : unpredictableBreak (some i) (fetched s) = false) {u : State}
    (hu : execCpu i (passBreak (fetched s)) = .next u) :
    step s = .next (finish (fetched s) (retire i (fetched s) u)) := by
  rw [hf.step_cases, hbrk, if_neg Bool.false_ne_true, hu, afterExec, settleIfm_predictable hpre]

/-- The step of an instruction that a breakpoint stops for certain. -/
theorem Fetches.step_breaks (hf : Fetches s w i) (hi : ∀ rs, i ≠ .table (.mtsprIctrl rs))
    (hc : certainBreak (fetched s) = true) :
    ∃ t, step s = .next t ∧ t.dev = { s.dev with ecr := s.dev.ecr ||| 0x00000004#32 } ∧ t.cpu.srr0 = s.cpu.pc ∧
      SameGprs s t ∧ SameMemory s t ∧ t.port = s.port ∧ t.mode.dm = (s.dev.der.getMsbD 29 && s.mode.dme) := by
  have hdm : (fetched s).mode.dm = false := hf.outside
  obtain ⟨hdev, hsrr0, hgpr, hport, hdebug⟩ := takeInstrBreak_certain hi hdm hc
  refine ⟨finish (fetched s) (takeInstrBreak (some i) (fetched s)), ?_, ?_, ?_, fun q => ?_, fun a => ?_, ?_, ?_⟩
  · rw [hf.step_cases, instrBreakTaken_of_certain hi hc, if_pos rfl]
  · rw [finish_dev, hdev, fetched_dev]
  · rw [finish_srr0, hsrr0, fetched_pc]
  · rw [readGpr_finish, readGpr_congr hgpr, readGpr_fetched]
  · rw [finish_mem, takeInstrBreak_mem, fetched_mem]
  · rw [finish_port, hport, fetched_port]
  · rw [finish_mode, hdebug, fetched_dev, fetched_mode]

end

/-- Settles O4: the decoder puts the rows of the table first, and the step by its two cases. -/
theorem stepRunsDecodedInstruction : Obligations.StepRunsDecodedInstruction := by
  refine ⟨fun w i h => decodeCpu_table h, fun _ _ => rfl,
    fun s w i hin hstop hdm hnmbrk hpending hisct hexc hmem hdec => ?_⟩
  have hf : Fetches s w i := ⟨hin, hstop, hdm, hnmbrk, hpending, hisct, hexc, hmem, hdec⟩
  rw [hf.step_cases]
  cases execCpu i (passBreak (fetched s)) <;> rfl

theorem directBreak_fetched {s : State} (h : s.dev.lctrl2.getMsbD 20 = true ∨ s.cpu.msr.ri = true) :
    directBreak (fetched s) = instrBreakDirect (fetched s) := by
  have hrec : recognised (fetched s) = true := (recognised_iff (fetched s)).mpr h
  rw [directBreak, hrec, Bool.true_and]

/-- Settles O51: a recognised direct breakpoint with IFM = 0 stops the instruction for certain. -/
theorem instructionBreakpointBeforeExecution : Obligations.InstructionBreakpointBeforeExecution := by
  intro s w i hin hstop hdm hnmbrk hpending hisct hexc hmem hdec hi _ _ hrec hifm hbrk
  have hf : Fetches s w (.table i) := ⟨hin, hstop, hdm, hnmbrk, hpending, hisct, hexc, hmem, decodeCpu_table hdec⟩
  have hifm' : ictrlIfm (fetched s).dev.ictrl = false := hifm
  refine hf.step_breaks (fun rs h => hi rs (CpuInstr.table.inj h)) ?_
  rw [certainBreak, directBreak_fetched hrec, hbrk, hifm']
  rfl

/-! ### The end of an executed instruction -/

theorem sameGprs_retired (i : CpuInstr) (s u : State) : SameGprs u (finish s (retire i s u)) := fun q => by
  rw [readGpr_finish, readGpr_congr (retire_gpr i s u)]

theorem sameMemory_retired (i : CpuInstr) (s u : State) : SameMemory u (finish s (retire i s u)) := fun a => by
  rw [finish_mem, retire_mem]

theorem retired_ibrk (i : CpuInstr) (s u : State) :
    (finish s (retire i s u)).dev.ecr.getMsbD 29 = u.dev.ecr.getMsbD 29 := by
  rw [finish_dev, retire_ibrk]

/-- With no bus cycle and in no trace mode an instruction retires with nothing but its counts. -/
theorem retired_noCycles {i : CpuInstr} {s u : State} (hexc : u.cpu.flight.excepted = false)
    (hcycles : u.cpu.flight.cycles = []) (hse : s.cpu.msr.se = false) (hbe : s.cpu.msr.be = false) :
    (finish s (retire i s u)).dev = { u.dev with counta := retiredA i s u, countb := retiredB i s u } ∧
      (finish s (retire i s u)).cpu.pc = u.cpu.pc := by
  rw [retire_quiet hexc (loadStoreBreak_noCycles hcycles) hse hbe, finish_dev, finish_pc]
  exact ⟨rfl, rfl⟩

/-! ### The ignored first match (R261, R262) -/

/-- Settles O52: the instruction runs with IFM cleared and retires with no counter active. -/
theorem ignoredFirstMatchExecutes : Obligations.IgnoredFirstMatchExecutes := by
  intro s w i hf hi ha hb hrec hifm hbrk
  have hdirect : directBreak (fetched s) = true := (directBreak_fetched hrec).trans hbrk
  have hpass := passBreak_match hdirect
  have hcount : counterInstrBreak (fetched s) = false :=
    counterInstrBreak_eq_false (.inl (counts_instr_eq_false (by simp [ha]) _))
      (.inl (counts_instr_eq_false (by simp [hb]) _))
  have hnot : instrBreakTaken (some i) (fetched s) = false := instrBreakTaken_eq_false hi (.inr hifm) hcount
  have hpdev : (passBreak (fetched s)).dev = { s.dev with ictrl := s.dev.ictrl &&& 0xFFFFFFF7#32 } := by
    rw [hpass]; rfl
  have hquiet : ∀ u, u.cpu.flight.excepted = false → u.cpu.flight.cycles = [] → s.cpu.msr.se = false →
      s.cpu.msr.be = false → (finish (fetched s) (retire i (fetched s) u)).dev = u.dev ∧
        (finish (fetched s) (retire i (fetched s) u)).cpu.pc = u.cpu.pc := fun u hexc hcycles hse hbe => by
    obtain ⟨hdev, hpc⟩ := retired_noCycles (i := i) (s := fetched s) hexc hcycles hse hbe
    exact ⟨by rw [hdev, retiredA_inactive ha, retiredB_inactive hb], hpc⟩
  have hgprs : SameGprs s (passBreak (fetched s)) := fun q => by simp
  have hmemory : SameMemory s (passBreak (fetched s)) := fun a => by simp
  have hpre := unpredictableBreak_eq_false hi (fetched s)
  refine ⟨hpdev, by simp, hgprs, hmemory, fun u hu => ?_, ?_⟩
  · refine ⟨_, hf.step_executes hnot hpre hu, sameGprs_retired i _ u, sameMemory_retired i _ u, ?_, retired_ibrk i _ u,
      hquiet u⟩
    have hkept := (watchKept_execCpu hf.decodes hu).dev.ictrl fun rs h => hi rs (Option.some.inj h)
    rw [finish_dev, retire_ictrl, hkept, hpdev]
  · rintro rfl hse hbe
    have hu : execCpu (.table .isync) (passBreak (fetched s)) = .next (completeMarked (passBreak (fetched s))) := rfl
    have hflight : (completeMarked (passBreak (fetched s))).cpu.flight = (fetched s).cpu.flight := by simp
    obtain ⟨hdev, hpc⟩ := hquiet _ (by rw [hflight]; rfl) (by rw [hflight]; rfl) hse hbe
    refine ⟨_, hf.step_executes hnot hpre hu, ?_, ?_, fun q => ?_, fun a => ?_⟩
    · rw [hpc, completeMarked_pc, passBreak_pc, fetched_pc]
    · rw [hdev, completeMarked_dev, hpdev]
    · rw [sameGprs_retired, readGpr_completeMarked, hgprs]
    · rw [sameMemory_retired, completeMarked_mem, hmemory]

/-! ### Masked mode (R250, R251) -/

/-- Where internal breakpoints are not recognised nothing is counted and no load/store breakpoint follows. -/
theorem retired_masked {i : CpuInstr} {s t : State} (h : recognised s = false) :
    retiredA i s t = t.dev.counta ∧ retiredB i s t = t.dev.countb ∧ loadStoreBreak s t (watched s t) = none := by
  simp [retiredA, retiredB, countsA, countsB, counts, countRetired, loadStoreBreak, h]

/-- Settles O56: neither the fetch nor the retirement recognises a breakpoint. -/
theorem maskedModeLosesBreakpoints : Obligations.MaskedModeLosesBreakpoints := by
  intro s w i hf hmsk hri
  have hrec : recognised (fetched s) = false := by
    rw [← Bool.not_eq_true, recognised_iff]
    simp [hmsk, hri]
  obtain ⟨hnot, hpre⟩ := instrBreakTaken_masked (some i) hrec
  have hpass : passBreak (fetched s) = spend breakDraws (fetched s) :=
    passBreak_noMatch (by rw [directBreak, hrec, Bool.false_and])
  have hgprs : SameGprs s (passBreak (fetched s)) := fun q => by simp
  have hmemory : SameMemory s (passBreak (fetched s)) := fun a => by simp
  have hpdev : (passBreak (fetched s)).dev = s.dev := by rw [hpass]; rfl
  refine ⟨hnot, hpdev, by simp, hgprs, hmemory, fun u hu => ?_⟩
  obtain ⟨hcountA, hcountB, hbrk⟩ := retired_masked (i := i) (t := u) hrec
  have hdev : (finish (fetched s) (retire i (fetched s) u)).dev = u.dev ∨
      (finish (fetched s) (retire i (fetched s) u)).dev = { u.dev with ecr := u.dev.ecr ||| 0x00020000#32 } := by
    cases hexc : u.cpu.flight.excepted with
    | true => exact .inl (by rw [retire_excepted hexc, finish_dev])
    | false =>
      rw [finish_dev, retire_dev hexc, hcountA, hcountB, hbrk]
      cases traceFollows i (fetched s) u with
      | false => exact .inl (by simp [afterCauses])
      | true => exact .inr (by simp [afterCauses, eventMask])
  have hkept : BreakRegsKept (some i) s.dev (finish (fetched s) (retire i (fetched s) u)).dev := by
    have hexec : BreakRegsKept (some i) s.dev u.dev := hpdev ▸ (watchKept_execCpu hf.decodes hu).dev
    rcases hdev with h | h
    · exact hexec.trans (.of_eq h)
    · exact hexec.trans (.of_ecr h)
  have hne : ∀ {f : Reg → Instr}, (∀ rs, i ≠ .table (f rs)) → ∀ rs, some i ≠ some (.table (f rs)) :=
    fun h rs heq => h rs (Option.some.inj heq)
  refine ⟨_, hf.step_executes hnot hpre hu, sameGprs_retired i _ u, sameMemory_retired i _ u, hdev,
    fun h => hkept.counta (hne h), fun h => hkept.countb (hne h), fun h => hkept.ictrl (hne h),
    fun h => hkept.bar (hne h), fun hse hbe => ?_⟩
  cases hexc : u.cpu.flight.excepted with
  | true =>
    rw [retire_excepted hexc, finish_dev, finish_pc, finish_mode]
    exact ⟨rfl, rfl, rfl⟩
  | false =>
    rw [retire_quiet (s := fetched s) hexc hbrk hse hbe, finish_dev, finish_pc, finish_mode, reportRetired_dev, hcountA,
      hcountB]
    exact ⟨rfl, rfl, rfl⟩

/-! ### Counting instruction watchpoints (R277, R278, R279) -/

theorem ne_zero_of_one_lt {v : BitVec 16} (h : 1#16 < v) : v ≠ 0#16 := by
  rintro rfl
  exact absurd h (by decide)

/-- The counter of an instruction watchpoint counts a recognised one. -/
theorem counts_instr {c : Counter} (hc : c.cntc = 0b01#2) (lwp : Bool) : counts true c true lwp = true := by
  simp [counts, hc]

theorem countRetired_instr {c : Counter} (hc : c.cntc = 0b01#2) (hv : c.cntv ≠ 0#16) (lwp : Bool) (free : BitVec 16) :
    countRetired (counts true c true lwp) false free c = ⟨c.cntv - 1#16, 0b01#2⟩ := by
  rw [counts_instr hc, countRetired_counted hv, hc]

theorem altersCounta_eq_false {i : CpuInstr} (h : ∀ rs, i ≠ .table (.mtsprCounta rs)) : altersCounta i = false := by
  unfold altersCounta
  split
  · next rs => exact absurd rfl (h rs)
  · rfl

theorem altersCountb_eq_false {i : CpuInstr} (h : ∀ rs, i ≠ .table (.mtsprCountb rs)) : altersCountb i = false := by
  unfold altersCountb
  split
  · next rs => exact absurd rfl (h rs)
  · rfl

theorem retiredA_instr {i : CpuInstr} {s t : State} (hrec : recognised (fetched s) = true)
    (hiwp : (fetched s).cpu.flight.iwp0 = true) (hi : ∀ rs, i ≠ .table (.mtsprCounta rs))
    (ht : t.dev.counta = s.dev.counta) (hc : s.dev.counta.cntc = 0b01#2) (hv : s.dev.counta.cntv ≠ 0#16) :
    retiredA i (fetched s) t = ⟨s.dev.counta.cntv - 1#16, 0b01#2⟩ := by
  rw [retiredA, countsA, hrec, hiwp, altersCounta_eq_false hi, ht]
  exact countRetired_instr hc hv _ _

theorem retiredB_instr {i : CpuInstr} {s t : State} (hrec : recognised (fetched s) = true)
    (hiwp : (fetched s).cpu.flight.iwp1 = true) (hi : ∀ rs, i ≠ .table (.mtsprCountb rs))
    (ht : t.dev.countb = s.dev.countb) (hc : s.dev.countb.cntc = 0b01#2) (hv : s.dev.countb.cntv ≠ 0#16) :
    retiredB i (fetched s) t = ⟨s.dev.countb.cntv - 1#16, 0b01#2⟩ := by
  rw [retiredB, countsB, hrec, hiwp, altersCountb_eq_false hi, ht]
  exact countRetired_instr hc hv _ _

/-- A recognised instruction watchpoint expires its counter at one. -/
theorem counterExpires_instr {c : Counter} (hc : c.cntc = 0b01#2) (hv : c.cntv = 1#16) :
    counterExpires (counts true c true false) c = true := by
  rw [counts_instr hc, counterExpires, hv]
  rfl

/-- The step of an instruction that no breakpoint stops: the instruction writes no breakpoint register but its own, and
unless it takes an exception its retirement counts; neither sets IBRK. -/
theorem Fetches.step_counts {s u : State} {w : Word} {i : CpuInstr} (hf : Fetches s w i)
    (hi : ∀ rs, i ≠ .table (.mtsprIctrl rs)) (hdirect : directBreak (fetched s) = false)
    (hcount : counterInstrBreak (fetched s) = false) (hu : execCpu i (passBreak (fetched s)) = .next u) :
    BreakRegsKept (some i) s.dev u.dev ∧
      ∃ t, step s = .next t ∧ SameGprs u t ∧ SameMemory u t ∧ t.dev.ecr.getMsbD 29 = u.dev.ecr.getMsbD 29 ∧
        t.dev.counta = (if u.cpu.flight.excepted then u.dev.counta else retiredA i (fetched s) u) ∧
        t.dev.countb = (if u.cpu.flight.excepted then u.dev.countb else retiredB i (fetched s) u) ∧
        (u.cpu.flight.excepted = false → u.cpu.flight.cycles = [] → s.cpu.msr.se = false → s.cpu.msr.be = false →
          t.dev = { u.dev with counta := retiredA i (fetched s) u, countb := retiredB i (fetched s) u } ∧
            t.cpu.pc = u.cpu.pc) := by
  have hnot := instrBreakTaken_eq_false hi (.inl hdirect) hcount
  have hpdev : (passBreak (fetched s)).dev = s.dev := by rw [passBreak_noMatch hdirect]; rfl
  have hcounters : (finish (fetched s) (retire i (fetched s) u)).dev.counta =
        (if u.cpu.flight.excepted then u.dev.counta else retiredA i (fetched s) u) ∧
      (finish (fetched s) (retire i (fetched s) u)).dev.countb =
        (if u.cpu.flight.excepted then u.dev.countb else retiredB i (fetched s) u) := by
    rw [finish_dev]
    cases hexc : u.cpu.flight.excepted with
    | true => rw [retire_excepted hexc]; exact ⟨rfl, rfl⟩
    | false => rw [retire_dev hexc]; exact ⟨rfl, rfl⟩
  obtain ⟨hcounta, hcountb⟩ := hcounters
  exact ⟨hpdev ▸ (watchKept_execCpu hf.decodes hu).dev, _,
    hf.step_executes hnot (unpredictableBreak_eq_false hi _) hu, sameGprs_retired i _ u, sameMemory_retired i _ u,
    retired_ibrk i _ u, hcounta, hcountb, retired_noCycles (s := fetched s)⟩

/-- Settles O54: each counter above one counts at retirement, and at one it stops the instruction for certain. -/
theorem instructionCounterCountsAndExpires : Obligations.InstructionCounterCountsAndExpires := by
  intro s w i hf hi hrec hbrk
  have hrec' : recognised (fetched s) = true := (recognised_iff (fetched s)).mpr hrec
  have hdirect : directBreak (fetched s) = false := (directBreak_fetched hrec).trans hbrk
  have hstops : certainBreak (fetched s) = true →
      ∃ t, step s = .next t ∧ t.dev = { s.dev with ecr := s.dev.ecr ||| 0x00000004#32 } ∧ t.cpu.srr0 = s.cpu.pc ∧
        SameGprs s t ∧ SameMemory s t := fun hc => by
    obtain ⟨t, hstep, hdev, hsrr0, hgprs, hmemory, _⟩ := hf.step_breaks hi hc
    exact ⟨t, hstep, hdev, hsrr0, hgprs, hmemory⟩
  refine ⟨fun halters hc hother hiwp => ⟨fun hv u hu => ?_, fun hv => hstops ?_⟩,
    fun halters hc hother hiwp => ⟨fun hv u hu => ?_, fun hv => hstops ?_⟩⟩
  · have hcount := counterInstrBreak_eq_false (s := fetched s) (.inr hv) (.inl (counts_inactive hother _ _ _))
    obtain ⟨hregs, t, hstep, hgprs, hmemory, hibrk, hcounta, _, hquiet⟩ := hf.step_counts hi hdirect hcount hu
    have hkept : u.dev.counta = s.dev.counta := hregs.counta fun rs h => halters rs (Option.some.inj h)
    rw [retiredA_instr hrec' hiwp halters hkept hc (ne_zero_of_one_lt hv)] at hcounta hquiet
    rw [retiredB_inactive hother] at hquiet
    exact ⟨t, hstep, hgprs, hmemory, hibrk, hkept ▸ hcounta, hquiet⟩
  · have hexpires := counterExpires_instr hc hv
    rw [certainBreak, instrCountA, hrec', hiwp, fetched_dev, hexpires, Bool.or_true, Bool.true_or]
  · have hcount := counterInstrBreak_eq_false (s := fetched s) (.inl (counts_inactive hother _ _ _)) (.inr hv)
    obtain ⟨hregs, t, hstep, hgprs, hmemory, hibrk, _, hcountb, hquiet⟩ := hf.step_counts hi hdirect hcount hu
    have hkept : u.dev.countb = s.dev.countb := hregs.countb fun rs h => halters rs (Option.some.inj h)
    rw [retiredB_instr hrec' hiwp halters hkept hc (ne_zero_of_one_lt hv)] at hcountb hquiet
    rw [retiredA_inactive hother] at hquiet
    exact ⟨t, hstep, hgprs, hmemory, hibrk, hkept ▸ hcountb, hquiet⟩
  · have hexpires := counterExpires_instr hc hv
    rw [certainBreak, instrCountB, hrec', hiwp, fetched_dev, hexpires, Bool.or_true]

/-! ### Stores (R272, R273, R276) -/

/-- A store of register `rs` at `a` with update of `ra` was performed. -/
structure Stored (a : Word) (rs ra : Reg) (s t : State) : Prop where
  word : memReadWord a t.mem = some (readGpr rs s)
  memory : SameMemoryBut a s t
  base : readGpr ra t = a
  gprs : SameGprsBut ra s t

/-- The state after a `stwu` that is executed in the state after its fetch. -/
def storeDone (rs ra : Reg) (a : Word) (s : State) : State :=
  completeSequential (writeGpr ra a (storeWord a (readGpr rs s) (spend breakDraws (fetched s))))

theorem execCpu_stwu {rs ra : Reg} {d : Int} {s : State} {a : Word} (ha : a = readGpr ra s + BitVec.ofInt 32 d)
    (hd : directBreak (fetched s) = false) :
    execCpu (.table (.stwu rs d ra)) (passBreak (fetched s)) = .next (storeDone rs ra a s) := by
  have hea : effectiveAddress ra d (spend breakDraws (fetched s)) = a := ha.symm
  rw [passBreak_noMatch hd, execCpu, exec, execStwu, hea]
  rfl

/-- The bus cycle of a store. -/
def storeCycle (rs : Reg) (a : Word) (s : State) : BusCycle := ⟨a, true, 4, busWord a (readGpr rs s)⟩

theorem storeDone_flight (rs ra : Reg) (a : Word) (s : State) :
    (storeDone rs ra a s).cpu.flight = { (fetched s).cpu.flight with cycles := [storeCycle rs a s] } :=
  (completeSequential_flight _).trans rfl

theorem storeDone_dev (rs ra : Reg) (a : Word) (s : State) : (storeDone rs ra a s).dev = s.dev := by
  simp [storeDone]

theorem stored_of_storeDone {rs ra : Reg} {a : Word} {s t : State} (hg : SameGprs (storeDone rs ra a s) t)
    (hm : SameMemory (storeDone rs ra a s) t) : Stored a rs ra s t := by
  have hmem : ∀ b, memRead b t.mem = memRead b (memWriteWord a (readGpr rs s) s.mem) := fun b => by
    rw [hm]; simp [storeDone]
  have hword : memReadWord a t.mem = memReadWord a (memWriteWord a (readGpr rs s) s.mem) := by
    simp only [memReadWord, hmem]
  refine ⟨by rw [hword, memReadWord_memWriteWord], fun b h0 h1 h2 h3 => ?_, ?_, fun q hq => ?_⟩
  · rw [hmem, memWriteWord_other a _ _ (by simpa [byteAddr] using h0) h1 h2 h3]
  · rw [hg, storeDone, readGpr_completeSequential, readGpr_writeGpr_same]
  · rw [hg, storeDone, readGpr_completeSequential, readGpr_writeGpr_other hq]
    simp

/-- The watchpoint whose fields begin at bit `p` of LCTRL2 is enabled without any condition. -/
theorem lwpMeets_unconditional {d : Dev} {p : Nat} (hen : d.lctrl2.getMsbD p = true)
    (hia : d.lctrl2.getMsbD (p + 3) = false) (hla : d.lctrl2.getMsbD (p + 6) = false)
    (hld : d.lctrl2.getMsbD (p + 9) = false) (f : Flight) (n : Nat) (c : BusCycle) : LwpMeets d p f n c := by
  have hoff : ∀ {b : Bool} {P : Prop}, b = false → b = true → P :=
    fun h h' => absurd (h.symm.trans h') Bool.false_ne_true
  exact ⟨hen, hoff hia, hoff hla, hoff hld⟩

/-- The load/store watchpoints of the one cycle of a store. -/
def storeWatched (rs ra : Reg) (a : Word) (s : State) : WatchedCycle where
  addr := a
  lwp0 := lwpCycle (lctrl2Lw0 s.dev.lctrl2) s.dev (storeDone rs ra a s).cpu.flight (storeDone rs ra a s).draws
    (storeCycle rs a s)
  lwp1 := lwpCycle (lctrl2Lw1 s.dev.lctrl2) s.dev (storeDone rs ra a s).cpu.flight (storeDone rs ra a s).draws
    (storeCycle rs a s)

theorem watched_storeDone (rs ra : Reg) (a : Word) (s : State) :
    watched (fetched s) (storeDone rs ra a s) = [storeWatched rs ra a s] := by
  have hcycles : (storeDone rs ra a s).cpu.flight.cycles = [storeCycle rs a s] := by rw [storeDone_flight]
  rw [watched, hcycles]
  rfl

theorem storeWatched_lwp0 {s : State} (hen : s.dev.lctrl2.getMsbD 0 = true) (hia : s.dev.lctrl2.getMsbD 3 = false)
    (hla : s.dev.lctrl2.getMsbD 6 = false) (hld : s.dev.lctrl2.getMsbD 9 = false) (rs ra : Reg) (a : Word) :
    (storeWatched rs ra a s).lwp0 = true := by
  rw [storeWatched, lctrl2Lw0_eq, lwpCycle_iff _ (by omega)]
  exact lwpMeets_unconditional hen hia hla hld _ _ _

theorem storeWatched_lwp1 {s : State} (hen : s.dev.lctrl2.getMsbD 10 = true) (hia : s.dev.lctrl2.getMsbD 13 = false)
    (hla : s.dev.lctrl2.getMsbD 16 = false) (hld : s.dev.lctrl2.getMsbD 19 = false) (rs ra : Reg) (a : Word) :
    (storeWatched rs ra a s).lwp1 = true := by
  rw [storeWatched, lctrl2Lw1_eq, lwpCycle_iff _ (by omega)]
  exact lwpMeets_unconditional hen hia hla hld _ _ _

/-- The breakpoint that LWP0 or LWP1 generates on the one cycle of a store. -/
theorem loadStoreBreak_storeDone {rs ra : Reg} {a : Word} {s : State} (hrec : recognised (fetched s) = true) :
    loadStoreBreak (fetched s) (storeDone rs ra a s) (watched (fetched s) (storeDone rs ra a s)) =
      if (storeWatched rs ra a s).breaks (lwp0Breaks (fetched s) (storeDone rs ra a s) [storeWatched rs ra a s])
        (lwp1Breaks (fetched s) (storeDone rs ra a s) [storeWatched rs ra a s]) then some a else none := by
  rw [watched_storeDone, loadStoreBreak, if_pos hrec]
  rfl

/-- The step of a `stwu` that no instruction breakpoint stops, in no trace mode: the store is performed and counted, and
a load/store breakpoint follows or not (R273, R276, R279). -/
theorem Fetches.step_stwu {s : State} {w : Word} {rs ra : Reg} {d : Int} {a : Word} {brk : Option Word}
    (hf : Fetches s w (.table (.stwu rs d ra))) (ha : a = readGpr ra s + BitVec.ofInt 32 d)
    (hdirect : directBreak (fetched s) = false) (hcount : counterInstrBreak (fetched s) = false)
    (hse : s.cpu.msr.se = false) (hbe : s.cpu.msr.be = false)
    (hbrk : loadStoreBreak (fetched s) (storeDone rs ra a s) (watched (fetched s) (storeDone rs ra a s)) = brk) :
    ∃ t, step s = .next t ∧ Stored a rs ra s t ∧
      t.dev = { s.dev with
        counta := retiredA (.table (.stwu rs d ra)) (fetched s) (storeDone rs ra a s)
        countb := retiredB (.table (.stwu rs d ra)) (fetched s) (storeDone rs ra a s)
        ecr := s.dev.ecr ||| afterCauses brk false
        bar := brk.getD s.dev.bar } ∧
      t.cpu.dar = s.cpu.dar ∧ t.cpu.dsisr = s.cpu.dsisr ∧ (brk = none → t.cpu.pc = s.cpu.pc + 4#32) ∧
      (brk.isSome → t.cpu.srr0 = s.cpu.pc + 4#32 ∧ t.mode.dm = (s.dev.der.getMsbD 28 && s.mode.dme)) := by
  have hi : ∀ r, CpuInstr.table (.stwu rs d ra) ≠ .table (.mtsprIctrl r) := fun r h => by cases h
  have hnot := instrBreakTaken_eq_false hi (.inl hdirect) hcount
  have hexc : (storeDone rs ra a s).cpu.flight.excepted = false := by rw [storeDone_flight]; rfl
  have htrace := traceFollows_off (s := fetched s) hse hbe (.table (.stwu rs d ra)) (storeDone rs ra a s)
  have hret := retire_completed (i := .table (.stwu rs d ra)) (s := fetched s) hexc
  have hdev := retire_dev (i := .table (.stwu rs d ra)) (s := fetched s) hexc
  rw [hbrk, htrace] at hret hdev
  have hmode : (storeDone rs ra a s).mode = s.mode := by simp [storeDone]
  have hpc : (storeDone rs ra a s).cpu.pc = s.cpu.pc + 4#32 := by simp [storeDone]
  refine ⟨_, hf.step_executes hnot (unpredictableBreak_eq_false hi _) (execCpu_stwu ha hdirect),
    stored_of_storeDone (sameGprs_retired _ _ _) (sameMemory_retired _ _ _), ?_, ?_, ?_, ?_, fun hsome => ?_⟩
  · rw [finish_dev, hdev, storeDone_dev]
  · rw [finish_dar, retire_dar]; simp [storeDone]
  · rw [finish_dsisr, retire_dsisr]; simp [storeDone]
  · rintro rfl
    rw [finish_pc, hret, ← hpc]
    rfl
  · obtain ⟨b, rfl⟩ := Option.isSome_iff_exists.mp hsome
    have hdm : (storeDone rs ra a s).mode.dm = false := by rw [hmode]; exact hf.outside
    obtain ⟨hsrr0, hdebug⟩ := raiseAfter_break (t := reportRetired (.table (.stwu rs d ra)) (fetched s)
      (storeDone rs ra a s) (watched (fetched s) (storeDone rs ra a s))) hdm b
    rw [finish_srr0, finish_mode, hret, hsrr0, hdebug, reportRetired_cpu, reportRetired_mode, reportRetired_dev, hpc,
      hmode, storeDone_dev]
    exact ⟨rfl, rfl⟩

/-- Settles O53: LWP0 breaks by its trap enable, and no counter counts. -/
theorem loadStoreBreakpointAfterExecution : Obligations.LoadStoreBreakpointAfterExecution := by
  intro s w i rs ra d hin hstop hdm hnmbrk hpending hisct hexc hmem hdec hi hca hcb hse hbe hrec hbrk hen hia hla hld
    hslw
  subst hi
  have hf : Fetches s w (.table (.stwu rs d ra)) :=
    ⟨hin, hstop, hdm, hnmbrk, hpending, hisct, hexc, hmem, decodeCpu_table hdec⟩
  have hcount := counterInstrBreak_eq_false (s := fetched s) (.inl (counts_inactive hca _ _ _))
    (.inl (counts_inactive hcb _ _ _))
  obtain ⟨a, ha⟩ : ∃ a, a = readGpr ra s + BitVec.ofInt 32 d := ⟨_, rfl⟩
  have henabled : lwp0Breaks (fetched s) (storeDone rs ra a s) [storeWatched rs ra a s] = true := by
    have hlen : loadStoreTrapEnable (fetched s) 0 = true := Bool.or_eq_true_iff.mpr (.inl hslw)
    rw [lwp0Breaks, hlen, Bool.true_or]
  have hbreak := loadStoreBreak_storeDone (rs := rs) (ra := ra) (a := a) ((recognised_iff (fetched s)).mpr hrec)
  rw [henabled, WatchedCycle.breaks, storeWatched_lwp0 hen hia hla hld, Bool.and_self, Bool.true_or,
    if_pos rfl] at hbreak
  obtain ⟨t, hstep, ⟨hword, hmemory, hbase, hgprs⟩, hdev, hdar, hdsisr, _, htaken⟩ :=
    hf.step_stwu ha ((directBreak_fetched hrec).trans hbrk) hcount hse hbe hbreak
  rw [retiredA_inactive hca, retiredB_inactive hcb, storeDone_dev, afterCauses_break] at hdev
  obtain ⟨hsrr0, hdebug⟩ := htaken rfl
  exact ⟨t, hstep, fun b hb => ha.trans hb.symm ▸ ⟨hdev, hword, hmemory, hbase⟩, hgprs, hsrr0, hdar, hdsisr, hdebug⟩

/-! ### Counting load/store watchpoints (R277, R278, R279) -/

/-- The counter of a load/store watchpoint makes no instruction breakpoint. -/
theorem counts_lwp_instr {c : Counter} (hc : c.cntc = 0b10#2) (recog iwp : Bool) : counts recog c iwp false = false :=
  counts_instr_eq_false (by rw [hc]; decide) iwp

theorem countRetired_lwp {c : Counter} (hc : c.cntc = 0b10#2) (hv : c.cntv ≠ 0#16) (iwp : Bool) (free : BitVec 16) :
    countRetired (counts true c iwp true) false free c = ⟨c.cntv - 1#16, 0b10#2⟩ := by
  have hcounts : counts true c iwp true = true := by simp [counts, hc]
  rw [hcounts, countRetired_counted hv, hc]

section
variable {s : State} {w : Word} {rs ra : Reg} {d : Int} {a : Word}

theorem retiredA_stwu (hrec : recognised (fetched s) = true) (hlwp : (storeWatched rs ra a s).lwp0 = true)
    (hc : s.dev.counta.cntc = 0b10#2) (hv : s.dev.counta.cntv ≠ 0#16) :
    retiredA (.table (.stwu rs d ra)) (fetched s) (storeDone rs ra a s) = ⟨s.dev.counta.cntv - 1#16, 0b10#2⟩ := by
  have hlwp0 : lwp0Of [storeWatched rs ra a s] = true := by rw [lwp0Of, List.any_cons, hlwp, Bool.true_or]
  rw [retiredA, countsA, watched_storeDone, hlwp0, hrec, storeDone_dev]
  exact countRetired_lwp hc hv _ _

theorem retiredB_stwu (hrec : recognised (fetched s) = true) (hlwp : (storeWatched rs ra a s).lwp1 = true)
    (hc : s.dev.countb.cntc = 0b10#2) (hv : s.dev.countb.cntv ≠ 0#16) :
    retiredB (.table (.stwu rs d ra)) (fetched s) (storeDone rs ra a s) = ⟨s.dev.countb.cntv - 1#16, 0b10#2⟩ := by
  have hlwp1 : lwp1Of [storeWatched rs ra a s] = true := by rw [lwp1Of, List.any_cons, hlwp, Bool.true_or]
  rw [retiredB, countsB, watched_storeDone, hlwp1, hrec, storeDone_dev]
  exact countRetired_lwp hc hv _ _

end

theorem counterBreak_lwp_inactive {c : Counter} (hc : c.cntc = 0#2) (lwp free : Bool) :
    counterBreak (c.cntc == 0b10#2 && lwp) c free = false := by
  have hsource : (c.cntc == 0b10#2) = false := by rw [hc]; rfl
  rw [hsource]
  exact counterBreak_eq_false (.inl rfl) free

theorem counterBreak_lwp_one {c : Counter} (hc : c.cntc = 0b10#2) (hv : c.cntv = 1#16) (free : Bool) :
    counterBreak (c.cntc == 0b10#2 && true) c free = true := by
  simp [counterBreak, counterExpires, hc, hv]

section
variable {s : State} {rs ra : Reg} {a : Word}

/-- With COUNTA alone counting LWP0 and no trap enable, a store breaks exactly where its event expires the counter. -/
theorem loadStoreBreak_counta (hrec : recognised (fetched s) = true) (hlen0 : loadStoreTrapEnable (fetched s) 0 = false)
    (hlen1 : loadStoreTrapEnable (fetched s) 1 = false) (hlwp : (storeWatched rs ra a s).lwp0 = true)
    (hc : s.dev.counta.cntc = 0b10#2) (hother : s.dev.countb.cntc = 0#2) :
    (1#16 < s.dev.counta.cntv →
      loadStoreBreak (fetched s) (storeDone rs ra a s) (watched (fetched s) (storeDone rs ra a s)) = none) ∧
    (s.dev.counta.cntv = 1#16 →
      loadStoreBreak (fetched s) (storeDone rs ra a s) (watched (fetched s) (storeDone rs ra a s)) = some a) := by
  have hof : lwp0Of [storeWatched rs ra a s] = true := by rw [lwp0Of, List.any_cons, hlwp, Bool.true_or]
  rw [loadStoreBreak_storeDone hrec]
  simp only [WatchedCycle.breaks, lwp0Breaks, lwp1Breaks, hlen0, hlen1, hlwp, hof, fetched_dev, Bool.false_or,
    Bool.true_and, counterBreak_lwp_inactive hother, Bool.and_false, Bool.or_false]
  exact ⟨fun hv => by rw [counterBreak_eq_false (.inr hv), if_neg Bool.false_ne_true],
    fun hv => by rw [counterBreak_lwp_one hc hv, if_pos rfl]⟩

/-- With COUNTB alone counting LWP1 and no trap enable, a store breaks exactly where its event expires the counter. -/
theorem loadStoreBreak_countb (hrec : recognised (fetched s) = true) (hlen0 : loadStoreTrapEnable (fetched s) 0 = false)
    (hlen1 : loadStoreTrapEnable (fetched s) 1 = false) (hlwp : (storeWatched rs ra a s).lwp1 = true)
    (hc : s.dev.countb.cntc = 0b10#2) (hother : s.dev.counta.cntc = 0#2) :
    (1#16 < s.dev.countb.cntv →
      loadStoreBreak (fetched s) (storeDone rs ra a s) (watched (fetched s) (storeDone rs ra a s)) = none) ∧
    (s.dev.countb.cntv = 1#16 →
      loadStoreBreak (fetched s) (storeDone rs ra a s) (watched (fetched s) (storeDone rs ra a s)) = some a) := by
  have hof : lwp1Of [storeWatched rs ra a s] = true := by rw [lwp1Of, List.any_cons, hlwp, Bool.true_or]
  rw [loadStoreBreak_storeDone hrec]
  simp only [WatchedCycle.breaks, lwp0Breaks, lwp1Breaks, hlen0, hlen1, hlwp, hof, fetched_dev, Bool.false_or,
    Bool.true_and, counterBreak_lwp_inactive hother, Bool.and_false, Bool.false_or]
  exact ⟨fun hv => by rw [counterBreak_eq_false (.inr hv), if_neg Bool.false_ne_true],
    fun hv => by rw [counterBreak_lwp_one hc hv, if_pos rfl]⟩

end

/-- Settles O55: the store's one cycle asserts the watchpoint, which its counter counts, and at one it breaks. -/
theorem loadStoreCounterCountsToZero : Obligations.LoadStoreCounterCountsToZero := by
  intro s w rs ra d a hf ha hrec hbrk hse hbe hlen0 hlen1
  have hrec' : recognised (fetched s) = true := (recognised_iff (fetched s)).mpr hrec
  have hdirect : directBreak (fetched s) = false := (directBreak_fetched hrec).trans hbrk
  have hone : ∀ {v : BitVec 16}, v = 1#16 → v ≠ 0#16 := by rintro _ rfl; decide
  have hzero : ∀ {v : BitVec 16}, v = 1#16 → v - 1#16 = 0#16 := by rintro _ rfl; rfl
  constructor
  · intro hen hia hla hld hc hother
    have hlwp := storeWatched_lwp0 hen hia hla hld rs ra a
    have hcount := counterInstrBreak_eq_false (s := fetched s) (.inl (counts_lwp_instr hc _ _))
      (.inl (counts_inactive hother _ _ _))
    obtain ⟨hnone, hsome⟩ := loadStoreBreak_counta hrec' hlen0 hlen1 hlwp hc hother
    refine ⟨fun hv => ?_, fun hv => ?_⟩
    · obtain ⟨t, hstep, ⟨hword, hmemory, hbase, hgprs⟩, hdev, _, _, hpc, _⟩ :=
        hf.step_stwu ha hdirect hcount hse hbe (hnone hv)
      rw [retiredA_stwu hrec' hlwp hc (ne_zero_of_one_lt hv), retiredB_inactive hother, storeDone_dev, afterCauses_none,
        BitVec.or_zero] at hdev
      exact ⟨t, hstep, hdev, hpc rfl, hword, hmemory, hbase, hgprs⟩
    · obtain ⟨t, hstep, ⟨hword, hmemory, hbase, hgprs⟩, hdev, _, _, _, htaken⟩ :=
        hf.step_stwu ha hdirect hcount hse hbe (hsome hv)
      rw [retiredA_stwu hrec' hlwp hc (hone hv), retiredB_inactive hother, storeDone_dev, afterCauses_break,
        hzero hv] at hdev
      obtain ⟨hsrr0, hdebug⟩ := htaken rfl
      exact ⟨t, hstep, hdev, hsrr0, hdebug, hword, hmemory, hbase, hgprs⟩
  · intro hen hia hla hld hc hother
    have hlwp := storeWatched_lwp1 hen hia hla hld rs ra a
    have hcount := counterInstrBreak_eq_false (s := fetched s) (.inl (counts_inactive hother _ _ _))
      (.inl (counts_lwp_instr hc _ _))
    obtain ⟨hnone, hsome⟩ := loadStoreBreak_countb hrec' hlen0 hlen1 hlwp hc hother
    refine ⟨fun hv => ?_, fun hv => ?_⟩
    · obtain ⟨t, hstep, ⟨hword, hmemory, hbase, hgprs⟩, hdev, _, _, hpc, _⟩ :=
        hf.step_stwu ha hdirect hcount hse hbe (hnone hv)
      rw [retiredB_stwu hrec' hlwp hc (ne_zero_of_one_lt hv), retiredA_inactive hother, storeDone_dev, afterCauses_none,
        BitVec.or_zero] at hdev
      exact ⟨t, hstep, hdev, hpc rfl, hword, hmemory, hbase, hgprs⟩
    · obtain ⟨t, hstep, ⟨hword, hmemory, hbase, hgprs⟩, hdev, _, _, _, htaken⟩ :=
        hf.step_stwu ha hdirect hcount hse hbe (hsome hv)
      rw [retiredB_stwu hrec' hlwp hc (hone hv), retiredA_inactive hother, storeDone_dev, afterCauses_break,
        hzero hv] at hdev
      obtain ⟨hsrr0, hdebug⟩ := htaken rfl
      exact ⟨t, hstep, hdev, hsrr0, hdebug, hword, hmemory, hbase, hgprs⟩

/-! ### The watchpoint pins (R242) -/

theorem returnFromException_pins (s : State) : (returnFromException s).trace.pins = s.trace.pins := by
  have hleave : ∀ u, (leaveDebug u).trace.pins = u.trace.pins := fun u => by simp [leaveDebug]
  unfold returnFromException
  split
  · split
    · exact hleave _
    · exact hleave _
  · simp

theorem completeMaybeMarked_pins (s : State) : (completeMaybeMarked s).trace.pins = s.trace.pins := by
  unfold completeMaybeMarked
  split <;> simp

/-- However an instruction ends, it leaves the pins alone. -/
theorem Ends.pins {s t : State} (h : Ends s t) : t.trace.pins = s.trace.pins := by
  cases h with
  | excepted => exact raise_pins _ _ s
  | returned => exact returnFromException_pins s
  | sequential u hu => rw [← hu]; exact reportType_pins _ _
  | marked u hu => rw [← hu]; exact (markNext_pins _ _).trans (reportType_pins _ _)
  | maybeMarked u hu => rw [← hu]; exact completeMaybeMarked_pins u

theorem retire_pins {i : CpuInstr} {s t : State} (h : t.cpu.flight.excepted = false) :
    (retire i s t).trace.pins =
      ⟨s.cpu.flight.iwp0, s.cpu.flight.iwp1, s.cpu.flight.iwp2, lwp0Of (watched s t), lwp1Of (watched s t)⟩ := by
  rw [retire_completed h, raiseAfter_pins]
  rfl

theorem settleIfm_cpu (i : Option CpuInstr) (s t : State) : (settleIfm i s t).cpu = t.cpu := by
  unfold settleIfm; split <;> rfl

theorem settleIfm_draws (i : Option CpuInstr) (s t : State) : (settleIfm i s t).draws = t.draws := by
  unfold settleIfm; split <;> rfl

/-- Settles O58: the retirement sets the pins by the watchpoints of the fetch, and nothing after it changes them. -/
theorem watchpointPinsAtRetirement : Obligations.WatchpointPinsAtRetirement := by
  intro s u w i f hf hfl hnot hu
  have hstep : step s = .next (finish (fetched s) (retire i (fetched s) (settleIfm (some i) (fetched s) u))) := by
    rw [hf.step_cases, hnot, if_neg Bool.false_ne_true, hu, afterExec]
  have hpass : (passBreak (fetched s)).mode.dm = false := by rw [passBreak_mode]; exact hf.outside
  obtain ⟨_, cs, b, hflight⟩ := watchKept_execCpu hf.decodes hu
  have hfetch : (passBreak (fetched s)).cpu.flight = f := by rw [passBreak_flight, hfl]; rfl
  rw [hfetch] at hflight
  refine ⟨_, hstep, fun hexc => ?_, fun hexc => ?_⟩
  · have hexc' : (settleIfm (some i) (fetched s) u).cpu.flight.excepted = false := by rw [settleIfm_cpu, hexc]
    have hwatched : watched (fetched s) (settleIfm (some i) (fetched s) u) =
        watchCycles s.dev u.cpu.flight u.draws u.cpu.flight.cycles := by
      rw [watched, settleIfm_cpu, settleIfm_draws]
      rfl
    obtain ⟨hlwp0, hlwp1⟩ := loadStoreWatchpoints s.dev u.cpu.flight u.draws u.cpu.flight.cycles
    rw [finish_pins, retire_pins hexc', hwatched, hlwp0, hlwp1, hflight, hfl]
    exact ⟨rfl, rfl, rfl, Iff.rfl, Iff.rfl⟩
  · have hexc' : (settleIfm (some i) (fetched s) u).cpu.flight.excepted = true := by rw [settleIfm_cpu, hexc]
    rw [finish_pins, retire_excepted hexc', settleIfm_trace, (ends_execCpu hpass hf.decodes hu).pins, passBreak_trace]
    rfl

/-! ### Debug mode (R285, R460, R461) -/

theorem saveFaultAddress_dev (e : CpuExc) (s : State) : (saveFaultAddress e s).dev = s.dev := by
  cases e <;> rfl

theorem raiseMachineCheck_dev (async : Bool) (resume : Word) (s : State) :
    ∃ b, (raiseMachineCheck async resume s).dev = { s.dev with ecr := b } := by
  rcases raiseMachineCheck_cases async resume s with ⟨_, h⟩ | ⟨_, _, _, h⟩ | ⟨_, _, _, h⟩ | ⟨_, _, _, h⟩ <;> rw [h]
  · exact ⟨_, rfl⟩
  · exact ⟨_, rfl⟩
  · exact ⟨_, (regularException_dev _ _ _).trans rfl⟩
  · exact ⟨_, rfl⟩

theorem raiseCpuExc_dev (e : CpuExc) (s : State) : ∃ b, (raiseCpuExc e s).dev = { s.dev with ecr := b } := by
  rw [← saveFaultAddress_dev e s]
  cases e with
  | machineCheck => exact raiseMachineCheck_dev _ _ _
  | _ => exact ⟨_, raise_dev _ _ _⟩

theorem drawSpr_dev (n : Spr) (s : State) : (drawSpr n s).dev = sprWritten n (freeWord 0 s) s.dev := by
  cases n <;> rfl

/-- Only of its own `mtspr` is a special register the destination. -/
theorem mtspr_of_destinationOf {i : Option CpuInstr} {n : Spr} (h : destinationOf i = .spr n) :
    ∃ rs, i = some (.table (.mtspr rs n)) := by
  cases i with
  | none => cases h
  | some i =>
    cases i with
    | table j => cases j <;> cases h <;> exact ⟨_, rfl⟩
    | mfsprSave rd n => cases h
    | mtsprSave n rs => cases h

/-- The drawn destination of an excepting instruction is no breakpoint register but that of its own `mtspr`. -/
theorem breakRegsKept_drawDestination (i : Option CpuInstr) (s0 s : State) :
    BreakRegsKept i s.dev (drawDestination i s0 s).dev := by
  unfold drawDestination
  cases hdest : destinationOf i with
  | nothing => exact .of_eq rfl
  | gpr rd => exact .of_eq rfl
  | spr n =>
    obtain ⟨rs, rfl⟩ := mtspr_of_destinationOf hdest
    rw [drawAt, spend_dev, drawSpr_dev]
    exact breakRegsKept_sprWritten rs n _ s.dev
  | save n => exact .of_eq (by cases n <;> rfl)
  | store ra d => exact .of_eq rfl
  | unknown => exact .of_eq (by simp only [drawAt, drawUnknown, spend])

theorem finishDebug_dev (s t : State) : (finishDebug s t).dev = t.dev := by
  rw [finishDebug, fetchFromPort_dev]
  exact finish_dev s t

theorem finishDebug_pins (s t : State) : (finishDebug s t).trace.pins = WatchPins.quiet := by
  rw [finishDebug, fetchFromPort_trace]

theorem breakRegsKept_traceInDebug (i : CpuInstr) (s t : State) :
    BreakRegsKept (some i) t.dev (traceInDebug i s t).dev := by
  rcases traceInDebug_cases i s t with h | ⟨_, _, _, _, h⟩ <;> rw [h]
  · exact .of_eq rfl
  · have hrecorded : BreakRegsKept (some i) t.dev (spend 1 (recordInDebug .trace t)).dev := .of_ecr rfl
    exact hrecorded.trans (breakRegsKept_drawDestination _ _ _)

/-- What a step in debug mode does to the pins and the breakpoint registers: the first stay or become quiet, the second
are written by an `mtspr` that the port delivered. -/
theorem debugStep_keeps {s t : State} (h : debugStep s = .next t) :
    (t.trace.pins = s.trace.pins ∨ t.trace.pins = WatchPins.quiet) ∧
      ∃ i, BreakRegsKept i s.dev t.dev ∧ ∀ j, i = some j → ∃ w, s.cpu.dpir = some w ∧ decodeCpu w = some j := by
  have hno : ∀ j, (none : Option CpuInstr) = some j → ∃ w, s.cpu.dpir = some w ∧ decodeCpu w = some j :=
    fun j hj => by cases hj
  rcases debugStep_next h with ⟨_, rfl⟩ | ⟨_, _, rfl⟩ | ⟨_, _, _, rfl⟩ | ⟨_, _, w, e, hw, _, rfl⟩ |
    ⟨_, _, w, i, u, hw, _, hi, hu, rfl⟩
  · exact ⟨.inl rfl, none, .of_ecr rfl, hno⟩
  · exact ⟨.inl rfl, none, .of_ecr rfl, hno⟩
  · exact ⟨.inl (by rw [fetchFromPort_trace]), none, .of_eq (fetchFromPort_dev s), hno⟩
  · refine ⟨.inr (finishDebug_pins _ _), decodeCpu w, ?_, fun j hj => ⟨w, hw, hj⟩⟩
    obtain ⟨b, hb⟩ := raiseCpuExc_dev e { s with ext.cpuExc := none, cpu.dpir := none }
    have hexc : BreakRegsKept (decodeCpu w) s.dev
        (raiseCpuExc e { s with ext.cpuExc := none, cpu.dpir := none }).dev := .of_ecr hb
    rw [finishDebug_dev]
    exact hexc.trans (breakRegsKept_drawDestination _ _ _)
  · refine ⟨.inr (finishDebug_pins _ _), some i, ?_, fun j hj => ⟨w, hw, hj ▸ hi⟩⟩
    have hexec : BreakRegsKept (some i) s.dev u.dev := (watchKept_execCpu hi hu).dev
    rw [finishDebug_dev]
    exact hexec.trans (breakRegsKept_traceInDebug i s u)

theorem decodeWord_of_decodeCpu {w : Word} {j : Instr} (h : decodeCpu w = some (.table j)) : decodeWord w = .ok j := by
  rcases decodeCpu_cases h with ⟨j', hj', hjj⟩ | ⟨_, _, hne⟩ | ⟨_, _, hne⟩
  · cases hjj; exact hj'
  · cases hne
  · cases hne

/-- Settles O57: a step in debug mode makes the pins quiet, and only a delivered `mtspr` writes a counter, ICTRL or
BAR. -/
theorem nothingCountsInDebugMode : Obligations.NothingCountsInDebugMode := by
  intro s t hin hdm hquiet hstep
  have hcpu : cpuStep s = .next t := by rwa [step, stepMachine, hin] at hstep
  have hdebug : debugStep s = .next t := by
    obtain ⟨_, _, ⟨_, h⟩ | ⟨hdm', _⟩⟩ := cpuStep_next hcpu
    · exact h
    · rw [hdm] at hdm'; cases hdm'
  obtain ⟨hpins, i, hkept, hdelivered⟩ := debugStep_keeps hdebug
  have hnot : ∀ {f : Reg → Instr}, (¬∃ w rs, s.cpu.dpir = some w ∧ decodeWord w = .ok (f rs)) →
      ∀ rs, i ≠ some (.table (f rs)) := fun hno rs hi => by
    obtain ⟨w, hw, hdec⟩ := hdelivered _ hi
    exact hno ⟨w, rs, hw, decodeWord_of_decodeCpu hdec⟩
  exact ⟨hpins.elim (fun h => h.trans hquiet) id, fun hne => by_contra fun hno => hne (hkept.counta (hnot hno)),
    fun hne => by_contra fun hno => hne (hkept.countb (hnot hno)),
    fun hne => by_contra fun hno => hne (hkept.ictrl (hnot hno)),
    fun hne => by_contra fun hno => hne (hkept.bar (hnot hno))⟩

end Sys2Proof.Machine
end

section
/-! SUPPORT and PROOFS. The development port (42_development_port.md R325 to R364). A transmission is one exchange, of
which the status decides whether the input is acted on; what the exchange does to the port's flags is said once for
each status, and what each effect does once for each state of the CPU it meets. -/

namespace Sys2Proof.Machine

/-! ### The handshake and the status (R326 to R332) -/

theorem portReady_iff (s : State) : portReady s = true ↔ s.mode.dm = false ∨ s.cpu.wait ≠ CpuWait.none := by
  simp [portReady]

/-- The four statuses and the flags that decide them (R330, R332; outside debug mode log 42). -/
theorem outStatus_cases (s : State) :
    (s.mode.dm = true ∧ s.port.pValid = true ∧ outStatus s = .validData) ∨
    ((s.mode.dm = false ∨ s.port.pValid = false) ∧ s.port.pSeq = true ∧ outStatus s = .sequencingError) ∨
    (s.mode.dm = true ∧ s.port.pValid = false ∧ s.port.pSeq = false ∧ s.port.pInt = true ∧
      outStatus s = .cpuInterrupt) ∨
    ((s.mode.dm = false ∨ s.port.pValid = false) ∧ s.port.pSeq = false ∧
      (s.mode.dm = false ∨ s.port.pInt = false) ∧ outStatus s = .null) := by
  unfold outStatus
  cases s.mode.dm <;> cases s.port.pValid <;> cases s.port.pSeq <;> cases s.port.pInt <;> simp

theorem inputActedOn_of_noErrorStatus {s : State} (h : NoErrorStatus s) : inputActedOn s = true := by
  unfold inputActedOn
  rcases outStatus_cases s with ⟨_, _, hst⟩ | ⟨hvalid, hseq, _⟩ | ⟨hdm, hvalid, _, hint, _⟩ | ⟨_, _, _, hst⟩
  · rw [hst]
  · rcases h with ⟨hdm, hv⟩ | ⟨hno, _⟩
    · simp [hdm, hv] at hvalid
    · simp [hno] at hseq
  · rcases h with ⟨_, hv⟩ | ⟨_, hno | hno⟩
    · simp [hv] at hvalid
    · simp [hno] at hdm
    · simp [hno] at hint
  · rw [hst]

/-- With ready asserted and no error status the effect follows the exchange. -/
theorem transmit_acted {s : State} (hr : s.mode.dm = false ∨ s.cpu.wait ≠ CpuWait.none) (h : NoErrorStatus s)
    (f : Frame) (e : State → State) : transmit f e s = .next (e (exchange f s)) := by
  rw [transmit_ready ((portReady_iff s).mpr hr), if_pos (inputActedOn_of_noErrorStatus h)]

/-- Under an error status there is the exchange alone (R333). -/
theorem transmit_ignored {s : State} (hr : s.mode.dm = false ∨ s.cpu.wait ≠ CpuWait.none)
    (h : inputActedOn s = false) (f : Frame) (e : State → State) : transmit f e s = .next (exchange f s) := by
  rw [transmit_ready ((portReady_iff s).mpr hr), h]
  rfl

/-- A transmission without an effect is the exchange, whatever the status. -/
theorem transmit_nop {s : State} (hr : s.mode.dm = false ∨ s.cpu.wait ≠ CpuWait.none) (f : Frame) :
    transmit f (fun t => t) s = .next (exchange f s) := by
  rw [transmit_ready ((portReady_iff s).mpr hr), ite_self]

/-! ### The exchange by status (R330, R333) -/

/-- The exchange clears the reported flag; beside that it changes the shift register and what was shifted out. -/
theorem exchange_port (f : Frame) (s : State) :
    ∃ b, (exchange f s).port =
      { (clearReported f { s with port.dsdo := s.port.dsdo ++ [outFrame f s] }).port with shift := b } :=
  shiftIn_port f _

theorem exchange_port_sequencingError {s : State} (h : outStatus s = .sequencingError) (f : Frame) :
    ∃ b, (exchange f s).port =
      { s.port with pSeq := false, shift := b, dsdo := s.port.dsdo ++ [outFrame f s] } := by
  obtain ⟨b, hb⟩ := exchange_port f s
  have hst : outStatus { s with port.dsdo := s.port.dsdo ++ [outFrame f s] } = .sequencingError := h
  exact ⟨b, by simp [hb, clearReported, hst]⟩

theorem exchange_port_cpuInterrupt {s : State} (h : outStatus s = .cpuInterrupt) (f : Frame) :
    ∃ b, (exchange f s).port =
      { s.port with pInt := false, shift := b, dsdo := s.port.dsdo ++ [outFrame f s] } := by
  obtain ⟨b, hb⟩ := exchange_port f s
  have hst : outStatus { s with port.dsdo := s.port.dsdo ++ [outFrame f s] } = .cpuInterrupt := h
  exact ⟨b, by simp [hb, clearReported, hst]⟩

theorem samePortControl_exchange (f : Frame) (s : State) : SamePortControl s (exchange f s) := by
  simp [SamePortControl]

theorem sameMemory_exchange (f : Frame) (s : State) : SameMemory s (exchange f s) := fun a => by
  rw [exchange_mem]

/-! ### The output frame (R147 to R149, R330, R331) -/

theorem outStatusCode_outStatus (s : State) :
    outStatusCode (outStatus s) = if s.mode.dm && s.port.pValid then 0b00#2 else if s.port.pSeq then 0b01#2
      else if s.mode.dm && s.port.pInt then 0b10#2 else 0b11#2 := by
  simp only [outStatus, apply_ite outStatusCode]
  rfl

theorem outData_eq (s : State) :
    outData s = if s.mode.dm && s.port.pValid then s.port.shift.extractLsb' 0 32
      else BitVec.ofBool s.mode.frz ++ BitVec.ofBool (!s.port.dlip) ++ 0x3FFFFFFF#30 := by
  unfold outData
  rcases outStatus_cases s with ⟨hdm, hv, hst⟩ | ⟨hv, _, hst⟩ | ⟨_, hv, _, _, hst⟩ | ⟨hv, _, _, hst⟩
  · simp [hst, hdm, hv]
  · rcases hv with hv | hv <;> simp [hst, hv]
  · simp [hst, hv]
  · rcases hv with hv | hv <;> simp [hst, hv]

/-! ### Every transmission -/

/-- Every transmission exchanges the frame it is encoded as, with one of the effects. -/
theorem exec_transmission_frame {i : Instr} (h : isTransmission i = true) :
    ∃ f e, Effect e ∧ (∀ s, exec i s = transmit f e s) ∧ frameCode f = encode i := by
  cases i with
  | instr w => exact ⟨_, _, .instr w, fun _ => rfl, rfl⟩
  | data v => exact ⟨_, _, .data v, fun _ => rfl, rfl⟩
  | tecr d => exact ⟨_, _, .tecr _ d, fun _ => rfl, rfl⟩
  | cmdHreset x => exact ⟨_, _, .reset .hard, fun _ => rfl, rfl⟩
  | cmdSreset x => exact ⟨_, _, .reset .soft, fun _ => rfl, rfl⟩
  | cmdStartDownload => exact ⟨_, _, .start, fun _ => rfl, rfl⟩
  | cmdEndDownload => exact ⟨_, _, .stop, fun _ => rfl, rfl⟩
  | cmdBrk n m => exact ⟨_, _, .brk n m, fun _ => rfl, rfl⟩
  | _ => first
    | (simp [isTransmission, encode] at h; done)
    | exact ⟨_, _, .nop, fun _ => rfl, rfl⟩

/-- `CMD_NOP` and the reserved commands are the transmissions without an effect (R342, R345). -/
theorem exec_nopCommand {x : BitVec 2} {y : BitVec 1} {i : Instr} (h : i ∈ nopCommands x y) :
    ∃ f, ∀ s, exec i s = transmit f (fun t => t) s := by
  unfold nopCommands at h
  fin_cases h <;> exact ⟨_, fun _ => rfl⟩

/-! ### The effects

What each does is said once for each state of the CPU it meets. -/

theorem instrEffect_outside {s : State} (h : s.mode.dm = false) (w : Word) : instrEffect w s = sequencingError s := by
  simp [instrEffect, h]

/-- The word is delivered to a CPU that fetches (R350). -/
theorem instrEffect_fetching {s : State} (h : s.mode.dm = true) (hw : s.cpu.wait = CpuWait.instr) (w : Word) :
    instrEffect w s = { s with cpu.dpir := some w, cpu.wait := .none } := by
  simp [instrEffect, h, hw]

/-- A read of DPDR ends with a bus error (R355). -/
theorem instrEffect_reading {s : State} {rd : Reg} (h : s.mode.dm = true) (hw : s.cpu.wait = .data rd) (w : Word) :
    instrEffect w s = dpdrBusError rd s := by
  simp [instrEffect, h, hw]

theorem dataEffect_outside {s : State} (h : s.mode.dm = false) (v : Word) : dataEffect v s = sequencingError s := by
  simp [dataEffect, h]

/-- The fetch stays outstanding (R354, D24). -/
theorem dataEffect_fetching {s : State} (h : s.mode.dm = true) (hw : s.cpu.wait = CpuWait.instr) (v : Word) :
    dataEffect v s = sequencingError s := by
  simp [dataEffect, h, hw]

/-- The read of DPDR completes and the CPU goes on to its next fetch (R351, R352, R363). -/
theorem dataEffect_reading {s : State} {rd : Reg} (h : s.mode.dm = true) (hw : s.cpu.wait = .data rd) (v : Word) :
    dataEffect v s = fetchFromPort (endDownload (completeRead rd v s)) := by
  simp [dataEffect, h, hw]

/-- The port's part in a fetch is to remember which word of the download loop is next. -/
theorem fetchFromPort_port (s : State) : ∃ b, (fetchFromPort s).port = { s.port with dlStore := b } := by
  unfold fetchFromPort
  split
  · split <;> exact ⟨_, rfl⟩
  · exact ⟨_, rfl⟩

theorem fetchFromPort_dsdo (s : State) : (fetchFromPort s).port.dsdo = s.port.dsdo := by
  obtain ⟨b, h⟩ := fetchFromPort_port s
  rw [h]

/-- The port's part in the end of a read is P_INT, set with the trace event. -/
theorem completeRead_port (rd : Reg) (v : Word) (s : State) :
    ∃ b, (completeRead rd v s).port = { s.port with pInt := b } := by
  rcases completeRead_cases rd v s with h | ⟨_, h⟩ <;> rw [h] <;> exact ⟨_, rfl⟩

theorem endDownload_continues {s : State} (h : s.port.dlip = false ∨ s.port.dlEnd = false) : endDownload s = s := by
  rcases h with h | h <;> simp [endDownload, h]

theorem endDownload_ends {s : State} (hd : s.port.dlip = true) (he : s.port.dlEnd = true) :
    endDownload s = { s with port.dlip := false, port.dlEnd := false, port.dlStore := false } := by
  simp [endDownload, hd, he]

/-- No effect reaches what was shifted out. -/
theorem Effect.dsdo_eq {e : State → State} (he : Effect e) (s : State) : (e s).port.dsdo = s.port.dsdo := by
  cases he with
  | nop | brk => rfl
  | instr w =>
    unfold instrEffect
    split
    · split
      · rfl
      · exact fetchFromPort_dsdo _
      · rfl
    · rfl
  | data v =>
    unfold dataEffect
    split
    · split
      · rfl
      · next rd _ =>
        obtain ⟨b, h⟩ := completeRead_port rd v s
        rw [fetchFromPort_dsdo, endDownload]
        split <;> simp [h]
      · rfl
    · rfl
  | tecr l d =>
    simp only [tecrEffect]
    split <;> simp
  | start =>
    unfold startDownloadEffect supplyWaiting
    split
    · split
      · exact fetchFromPort_dsdo _
      · rfl
    · rfl
  | stop => unfold endDownloadEffect; split <;> rfl
  | reset k => unfold resetMachine; dsimp only; split <;> rfl

/-! ### The obligations of every transmission -/

/-- Settles O24: the frame is that of the status and the data at the transmission, and no effect reaches it again. -/
theorem outputFrameOfEveryTransmission : Obligations.OutputFrameOfEveryTransmission := by
  intro s i hr hi
  obtain ⟨f, e, he, hexec, hf⟩ := exec_transmission_frame hi
  refine ⟨_, outFrame f s, (hexec s).trans (transmit_ready ((portReady_iff s).mpr hr) f e), ?_, _, _, rfl, rfl, ?_⟩
  · split
    · rw [he.dsdo_eq, exchange_dsdo]
    · exact exchange_dsdo f s
  · rw [← hf, ← outStatusCode_outStatus, ← outData_eq]
    cases f <;> rfl

/-- Settles O25: under an error status there is the exchange alone, which clears the flag it reports. -/
theorem inputIgnoredUnderErrorStatus : Obligations.InputIgnoredUnderErrorStatus := by
  intro s i hr hi hvalid herr
  obtain ⟨f, e, _, hexec⟩ := exec_transmission hi
  have hflags : inputActedOn s = false ∧ (exchange f s).port.pValid = s.port.pValid ∧
      (exchange f s).port.pSeq = false ∧
      (exchange f s).port.pInt = if s.port.pSeq then s.port.pInt else false := by
    rcases outStatus_cases s with ⟨hdm, hv, _⟩ | ⟨_, hseq, hst⟩ | ⟨_, _, hseq, _, hst⟩ | ⟨_, hseq, hint, _⟩
    · simp [hdm, hv] at hvalid
    · obtain ⟨b, hport⟩ := exchange_port_sequencingError hst f
      simp [inputActedOn, hst, hport, hseq]
    · obtain ⟨b, hport⟩ := exchange_port_cpuInterrupt hst f
      simp [inputActedOn, hst, hport, hseq]
    · rcases hint with h | h <;> simp [hseq, h] at herr
  obtain ⟨hignored, hflags⟩ := hflags
  exact ⟨exchange f s, (hexec s).trans (transmit_ignored hr hignored f e), exchange_cpu f s, exchange_dev f s,
    exchange_mode f s, exchange_ext f s, sameMemory_exchange f s, samePortControl_exchange f s, hflags⟩

/-- Settles O26: every transmission begins with the test of ready. -/
theorem notReadyRefusesEveryTransmission : Obligations.NotReadyRefusesEveryTransmission := by
  intro s i hdm hwait hi
  obtain ⟨f, e, _, hexec⟩ := exec_transmission hi
  have hready : portReady s = false := by simp [portReady, hdm, hwait]
  rw [hexec, transmit, hready]
  rfl

/-- Settles O30: each of these commands is the exchange alone. -/
theorem nopCommandsDoNothing : Obligations.NopCommandsDoNothing := by
  intro s x y i hr hi
  obtain ⟨f, hexec⟩ := exec_nopCommand hi
  refine ⟨exchange f s, (hexec s).trans (transmit_nop hr f), exchange_cpu f s, exchange_dev f s, exchange_mode f s,
    exchange_ext f s, sameMemory_exchange f s, samePortControl_exchange f s, exchange_trace f s, ?_⟩
  rw [exchange_dsdo, List.length_append, List.length_singleton]

/-- Settles O32: the command writes the two requests of the TECR alone. -/
theorem breakCommandSetsBothRequests : Obligations.BreakCommandSetsBothRequests := by
  intro s n m hr hs
  refine ⟨_, transmit_acted hr hs _ (brkEffect n m), ?_⟩
  simp [SameMemory]

/-! ### The steps that meet the port (R325, R350) -/

/-- In debug mode, with nothing else to happen, the step is the execution of the delivered word. -/
theorem step_delivered {s : State} {w : Word} {i : CpuInstr} (hin : s.ext.inputs = []) (hstop : s.cpu.checkStop = false)
    (hdm : s.mode.dm = true) (hwait : s.cpu.wait = CpuWait.none) (hw : s.cpu.dpir = some w) (hnmi : s.ext.nmi = false)
    (hcheck : s.ext.machineCheck = false) (hexc : s.ext.cpuExc = none) (hi : decodeCpu w = some i) :
    step s = afterExecDebug i s (execCpu i { s with cpu.dpir := none }) := by
  have hstep : step s = runDelivered w s := by
    simp [step, stepMachine, hin, cpuStep, hstop, waitsForTool, hdm, hwait, debugStep, hnmi, hcheck, hw]
  rw [hstep]
  simp [runDelivered, hexc, hi]

/-- Settles O5: the step reaches the delivered word, whose execution ends with the next fetch. -/
theorem stepRunsDeliveredInstruction : Obligations.StepRunsDeliveredInstruction := by
  refine ⟨fun w i h => decodeCpu_table h, fun _ _ => rfl,
    fun s w i hin hstop hdm hwait hw hnmi hcheck hexc hi => ?_⟩
  rw [step_delivered hin hstop hdm hwait hw hnmi hcheck hexc hi]
  cases execCpu i { s with cpu.dpir := none } <;> rfl

/-- Settles O6: a frame that is offered while ready is asserted is the whole step. -/
theorem stepTakesTransmission : Obligations.StepTakesTransmission := by
  intro s f rest i hin hr hdec
  simp [step, stepMachine, hin, (portReady_iff s).mpr hr, frameStep, hdec]

end Sys2Proof.Machine
end

section
/-! SUPPORT and PROOFS. What the transmissions with a function do (42_development_port.md R340 to R364): the effect of
each in the state after the exchange, from which the exchange's own frame leads back to the state before. -/

namespace Sys2Proof.Machine

/-! ### Instructions and data for the CPU (R350 to R355, R363) -/

/-- What the end of a read of DPDR into `rd` leaves: the data word in the register and the registers unchanged, or a
trace event in their place (R351, R444, R460). -/
def ReadOutcome (rd : Reg) (v : Word) (s t : State) : Prop :=
  (s.cpu.msr.se = false → s.cpu.msr.be = false → readGpr rd t = v ∧ t.dev = s.dev) ∧
  (s.cpu.msr.se = true → t.dev = { s.dev with ecr := s.dev.ecr ||| 0x00020000#32 } ∧ t.port.pInt = true) ∧
  ((readGpr rd t = v ∧ t.dev = s.dev) ∨
    (t.dev = { s.dev with ecr := s.dev.ecr ||| 0x00020000#32 } ∧ t.port.pInt = true))

theorem readOutcome_completeRead (rd : Reg) (v : Word) (s : State) : ReadOutcome rd v s (completeRead rd v s) := by
  have hfilled : readGpr rd (spend 1 { writeGpr rd v s with cpu.wait := .none }) = v := readGpr_writeGpr_same rd v s
  refine ⟨fun hse hbe => ?_, fun hse => ?_, ?_⟩
  · rw [completeRead_off hse hbe]
    exact ⟨hfilled, rfl⟩
  · rw [completeRead_step hse]
    exact ⟨rfl, rfl⟩
  · rcases completeRead_cases rd v s with h | ⟨_, h⟩ <;> rw [h]
    · exact .inl ⟨hfilled, rfl⟩
    · exact .inr ⟨rfl, rfl⟩

theorem sameGprsBut_completeRead (rd : Reg) (v : Word) (s : State) : SameGprsBut rd s (completeRead rd v s) :=
  fun q hq => by
    rcases completeRead_cases rd v s with h | ⟨_, h⟩ <;> rw [h]
    · exact readGpr_writeGpr_other hq v s
    · exact readGpr_writeGpr_other hq _ (recordInDebug .trace { s with cpu.wait := .none })

section
variable {s : State} {rd : Reg}

theorem exec_instr_acted (hr : s.mode.dm = false ∨ s.cpu.wait ≠ CpuWait.none) (hs : NoErrorStatus s) (w : Word) :
    ∃ f, exec (.instr w) s = .next (instrEffect w (exchange f s)) :=
  ⟨_, transmit_acted hr hs _ (instrEffect w)⟩

theorem exec_data_acted (hr : s.mode.dm = false ∨ s.cpu.wait ≠ CpuWait.none) (hs : NoErrorStatus s) (v : Word) :
    ∃ f, exec (.data v) s = .next (dataEffect v (exchange f s)) :=
  ⟨_, transmit_acted hr hs _ (dataEffect v)⟩

/-- With no download in progress a CPU that has read its data waits for the tool's next instruction. -/
theorem read_then_waits (hdm : s.mode.dm = true) (hd : s.port.dlip = false) (v : Word) :
    fetchFromPort (endDownload (completeRead rd v s)) = { completeRead rd v s with cpu.wait := .instr } := by
  obtain ⟨b, hport⟩ := completeRead_port rd v s
  have hdlip : (completeRead rd v s).port.dlip = false := by simp [hport, hd]
  rw [endDownload_continues (.inl hdlip)]
  exact fetchFromPort_waits (by simpa using hdm) (completeRead_wait rd v s) hdlip

/-- The data word after an end command ends the download, and the CPU waits for the tool's next instruction (R363). -/
theorem read_then_ends (hdm : s.mode.dm = true) (hd : s.port.dlip = true) (he : s.port.dlEnd = true) (v : Word) :
    fetchFromPort (endDownload (completeRead rd v s)) =
      { completeRead rd v s with
        port.dlip := false, port.dlEnd := false, port.dlStore := false, cpu.wait := .instr } := by
  obtain ⟨b, hport⟩ := completeRead_port rd v s
  rw [endDownload_ends (by simpa [hport] using hd) (by simpa [hport] using he)]
  exact fetchFromPort_waits (by simpa using hdm) (completeRead_wait rd v s) rfl

/-- The read goes on in the state after the exchange; its outcome is the same seen from before. -/
theorem ReadOutcome.of_exchange {v : Word} {f : Frame} {t : State} (h : ReadOutcome rd v (exchange f s) t) :
    ReadOutcome rd v s t := by
  simpa only [ReadOutcome, exchange_msr, exchange_dev] using h

end

/-- Settles O27: each transmission by what it does to the CPU that waits for it. -/
theorem transmissionsTheCpuWaitsFor : Obligations.TransmissionsTheCpuWaitsFor := by
  refine ⟨fun s w hdm hw hs => ?_, fun s rd v hdm hw hs hd => ?_, fun s v hdm hw hs hd he => ?_⟩
  · obtain ⟨f, hexec⟩ := exec_instr_acted (.inr (by simp [hw])) hs w
    rw [instrEffect_fetching (by simpa using hdm) (by simpa using hw)] at hexec
    exact ⟨_, hexec, by simp, by simp, by simp, by simp, samePortControl_exchange f s, sameMemory_exchange f s⟩
  · obtain ⟨f, hexec⟩ := exec_data_acted (.inr (by simp [hw])) hs v
    rw [dataEffect_reading (by simpa using hdm) (by simpa using hw),
      read_then_waits (by simpa using hdm) (by simpa using hd)] at hexec
    obtain ⟨b, hport⟩ := completeRead_port rd v (exchange f s)
    have hread : ReadOutcome rd v s { completeRead rd v (exchange f s) with cpu.wait := .instr } :=
      (readOutcome_completeRead rd v (exchange f s)).of_exchange
    refine ⟨_, hexec, fun q hq => ?_, rfl, by simp, by simp, by simp [SameExceptionRegs], by simp, by simp,
      by simp [SamePortControl, hport], fun a => by simp, hread⟩
    exact (sameGprsBut_completeRead rd v (exchange f s) q hq).trans (readGpr_exchange q f s)
  · obtain ⟨f, hexec⟩ := exec_data_acted (.inr (by simp [hw])) hs v
    rw [dataEffect_reading (by simpa using hdm) (by simpa using hw),
      read_then_ends (by simpa using hdm) (by simpa using hd) (by simpa using he)] at hexec
    have hread : ReadOutcome 31#5 v s
        { completeRead 31#5 v (exchange f s) with
          port.dlip := false, port.dlEnd := false, port.dlStore := false, cpu.wait := .instr } :=
      (readOutcome_completeRead 31#5 v (exchange f s)).of_exchange
    refine ⟨_, hexec, fun q hq => ?_, rfl, rfl, by simp, by simp, by simp [SameExceptionRegs], fun a => by simp, hread⟩
    exact (sameGprsBut_completeRead 31#5 v (exchange f s) q hq).trans (readGpr_exchange q f s)

/-! ### Misplaced instructions and data (R336, R354, R355) -/

/-- The open cause bit of the bus error is one of the two candidates (N17, log 36). -/
theorem busErrorBit_cases (k : Nat) (s : State) :
    busErrorBit k s = 0x10000000#32 ∨ busErrorBit k s = 0x00000400#32 := by
  unfold busErrorBit
  split
  · exact .inl rfl
  · exact .inr rfl

theorem dpdrBusError_flags (rd : Reg) (s : State) :
    (dpdrBusError rd s).port.pSeq = true ∧ (dpdrBusError rd s).port.pInt = true ∧
      (dpdrBusError rd s).port.tecr = s.port.tecr := by
  unfold dpdrBusError
  generalize hu : spend 4 _ = u
  obtain ⟨b, h⟩ := fetchFromPort_port u
  rw [h, ← hu]
  exact ⟨rfl, rfl, rfl⟩

theorem dpdrBusError_ecr (rd : Reg) (s : State) :
    (dpdrBusError rd s).dev = { s.dev with ecr := s.dev.ecr ||| 0x10000000#32 } ∨
      (dpdrBusError rd s).dev = { s.dev with ecr := s.dev.ecr ||| 0x00000400#32 } := by
  have hdev : (dpdrBusError rd s).dev = { s.dev with ecr := s.dev.ecr ||| busErrorBit 1 s } := by simp [dpdrBusError]
  rw [hdev]
  exact (busErrorBit_cases 1 s).imp (fun h => by rw [h]) (fun h => by rw [h])

theorem sameGprsBut_dpdrBusError (rd : Reg) (s : State) : SameGprsBut rd s (dpdrBusError rd s) := fun q hq => by
  rw [dpdrBusError, readGpr_fetchFromPort, readGpr_spend]
  exact readGpr_writeGpr_other hq (freeWord 0 s) s

theorem dpdrBusError_wait {s : State} (hdm : s.mode.dm = true) (hd : s.port.dlip = false) (rd : Reg) :
    (dpdrBusError rd s).cpu.wait = CpuWait.instr := by
  rw [dpdrBusError, fetchFromPort_waits (by simpa using hdm) rfl (by simpa using hd)]

/-- Outside debug mode the CPU waits for neither: the frame is discarded (R336). -/
theorem exec_outside {s : State} {w : Word} {i : Instr} (hi : i = .instr w ∨ i = .data w) (hdm : s.mode.dm = false) :
    ∃ f, exec i s = .next (if inputActedOn s then sequencingError (exchange f s) else exchange f s) := by
  have hready : portReady s = true := (portReady_iff s).mpr (.inl hdm)
  rcases hi with rfl | rfl
  · refine ⟨.long (0b100#3 ++ w), (transmit_ready hready _ (instrEffect w)).trans ?_⟩
    rw [instrEffect_outside (by simpa using hdm)]
  · refine ⟨.long (0b101#3 ++ w), (transmit_ready hready _ (dataEffect w)).trans ?_⟩
    rw [dataEffect_outside (by simpa using hdm)]

/-- Settles O28: each transmission by what it does to the CPU that waits for something else. -/
theorem misplacedTransmissionsAreSequencingErrors : Obligations.MisplacedTransmissionsAreSequencingErrors := by
  refine ⟨fun s v hdm hw hs => ?_, fun s w i hi hdm => ?_, fun s rd w hdm hw hs => ?_⟩
  · obtain ⟨f, hexec⟩ := exec_data_acted (.inr (by simp [hw])) hs v
    rw [dataEffect_fetching (by simpa using hdm) (by simpa using hw)] at hexec
    have hready : portReady (sequencingError (exchange f s)) = true := by simp [portReady, hw]
    exact ⟨_, hexec, rfl, by simpa using hw, hready, by simp, by simp, by simp, by simp, sameMemory_exchange f s,
      samePortControl_exchange f s⟩
  · obtain ⟨f, hexec⟩ := exec_outside hi hdm
    refine ⟨_, hexec, ?_⟩
    rcases outStatus_cases s with ⟨hdm', _⟩ | ⟨_, hseq, hst⟩ | ⟨hdm', _⟩ | ⟨_, hseq, _, hst⟩
    · simp [hdm] at hdm'
    · obtain ⟨b, hport⟩ := exchange_port_sequencingError hst f
      have hignored : inputActedOn s = false := by simp [inputActedOn, hst]
      simp [hignored, hport, hseq, SameMemory, SamePortControl]
    · simp [hdm] at hdm'
    · have hacted : inputActedOn s = true := by simp [inputActedOn, hst]
      simp [hacted, hseq, SameMemory, SamePortControl]
  · obtain ⟨f, hexec⟩ := exec_instr_acted (.inr (by simp [hw])) hs w
    rw [instrEffect_reading (by simpa using hdm) (by simpa using hw)] at hexec
    obtain ⟨hseq, hint, htecr⟩ := dpdrBusError_flags rd (exchange f s)
    have hecr := dpdrBusError_ecr rd (exchange f s)
    rw [exchange_dev] at hecr
    refine ⟨_, hexec, hseq, hint, hecr, fun q hq => ?_, by simp [dpdrBusError], by simp [dpdrBusError],
      by simp [dpdrBusError], by simp [dpdrBusError], htecr.trans (exchange_tecr f s), fun a => by simp, fun hd => ?_⟩
    · exact (sameGprsBut_dpdrBusError rd _ q hq).trans (readGpr_exchange q f s)
    · exact dpdrBusError_wait (by simpa using hdm) (by simpa using hd) rd

/-! ### The trap enables (R340) -/

/-- The state with the trap enables and VSYNC loaded. -/
def withTecr (l : TecrLayout) (d : BitVec 7) (s : State) : State :=
  { s with port.tecr := loadTecr l d s.port.tecr }

/-- What a trap enable transmission does beside the load: nothing without a change of VSYNC; else the change is
remembered in debug mode, and outside it held back or reported (R185, R195 to R198, log 51). -/
theorem tecrEffect_cases (l : TecrLayout) (d : BitVec 7) (s : State) :
    (s.port.tecr.vsync = d.getMsbD (l 6) ∧ tecrEffect l d s = withTecr l d s) ∨
    (s.port.tecr.vsync ≠ d.getMsbD (l 6) ∧ s.mode.dm = true ∧
      tecrEffect l d s = { withTecr l d s with trace.vsyncChanged := true }) ∨
    (s.port.tecr.vsync ≠ d.getMsbD (l 6) ∧ s.mode.dm = false ∧ vsyncMustWait (withTecr l d s) = true ∧
      tecrEffect l d s = { withTecr l d s with trace.vsyncHeld := s.trace.vsyncHeld + 1 }) ∨
    (s.port.tecr.vsync ≠ d.getMsbD (l 6) ∧ s.mode.dm = false ∧ vsyncMustWait (withTecr l d s) = false ∧
      tecrEffect l d s = vsyncEvent (withTecr l d s)) := by
  by_cases hv : s.port.tecr.vsync = d.getMsbD (l 6)
  · exact .inl ⟨hv, by simp [tecrEffect, withTecr, loadTecr, hv]⟩
  · have heffect : tecrEffect l d s = changeVsync (withTecr l d s) := by simp [tecrEffect, withTecr, loadTecr, hv]
    rw [heffect]
    right
    rcases changeVsync_cases (withTecr l d s) with ⟨hdm, h⟩ | ⟨hdm, hwait, h⟩ | ⟨hdm, hwait, h⟩
    · exact .inl ⟨hv, hdm, h⟩
    · exact .inr (.inl ⟨hv, hdm, hwait, h⟩)
    · exact .inr (.inr ⟨hv, hdm, hwait, h⟩)

/-- Beside the trace a trap enable transmission changes the TECR alone. -/
theorem tecrEffect_frame (l : TecrLayout) (d : BitVec 7) (s : State) :
    (tecrEffect l d s).cpu = s.cpu ∧ (tecrEffect l d s).dev = s.dev ∧ (tecrEffect l d s).mode = s.mode ∧
      (tecrEffect l d s).ext = s.ext ∧ (tecrEffect l d s).mem = s.mem ∧
      (tecrEffect l d s).port = { s.port with tecr := loadTecr l d s.port.tecr } := by
  rcases tecrEffect_cases l d s with ⟨_, h⟩ | ⟨_, _, h⟩ | ⟨_, _, _, h⟩ | ⟨_, _, _, h⟩ <;> simp [h, withTecr]

/-- What becomes of VSYNC loaded with `v`: a change is remembered in debug mode, held back, or reported with the next
fetch marked. -/
def VsyncOutcome (v : Bool) (s t : State) : Prop :=
  t.trace.vsyncChanged = (s.trace.vsyncChanged || (s.mode.dm && s.port.tecr.vsync != v)) ∧
  (if s.port.tecr.vsync = v ∨ s.mode.dm = true then
    t.trace.events = s.trace.events ∧ t.trace.mark = s.trace.mark ∧ t.trace.vsyncHeld = s.trace.vsyncHeld
   else if s.trace.vsyncHeld ≠ 0 ∨ s.trace.mark.vsync = true ∨ (v = false ∧ s.trace.mark.ptc = true) then
    t.trace.events = s.trace.events ∧ t.trace.mark = s.trace.mark ∧ t.trace.vsyncHeld = s.trace.vsyncHeld + 1
   else
    t.trace.events = s.trace.events ++ [.typeCode 0b011#3] ∧ t.trace.mark.ptc = true ∧ t.trace.mark.vsync = true ∧
      t.trace.vsyncHeld = 0)

@[simp] theorem vsyncEvent_vsyncChanged (s : State) : (vsyncEvent s).trace.vsyncChanged = s.trace.vsyncChanged := by
  simp [vsyncEvent]

theorem vsyncOutcome_tecrEffect (l : TecrLayout) (d : BitVec 7) (s : State) :
    VsyncOutcome (d.getMsbD (l 6)) s (tecrEffect l d s) := by
  have hmust : vsyncMustWait (withTecr l d s) = true ↔ s.trace.vsyncHeld ≠ 0 ∨ s.trace.mark.vsync = true ∨
      (d.getMsbD (l 6) = false ∧ s.trace.mark.ptc = true) := vsyncMustWait_iff
  unfold VsyncOutcome
  rcases tecrEffect_cases l d s with ⟨hv, h⟩ | ⟨hv, hdm, h⟩ | ⟨hv, hdm, hwait, h⟩ | ⟨hv, hdm, hwait, h⟩
  · rw [h, if_pos (.inl hv)]
    simp [withTecr, hv]
  · rw [h, if_pos (.inr hdm)]
    simp [withTecr, hdm, hv]
  · rw [h, if_neg (by simp [hv, hdm]), if_pos (hmust.mp hwait)]
    simp [withTecr, hdm]
  · have hnow := mt hmust.mpr (by simp [hwait])
    have hheld : s.trace.vsyncHeld = 0 := by_contra fun hne => hnow (.inl hne)
    have hdm' : (withTecr l d s).mode.dm = false := hdm
    rw [h, if_neg (by simp [hv, hdm]), if_neg hnow, vsyncEvent_events hdm', vsyncEvent_mark hdm']
    simp [withTecr, hdm, hheld, FetchMark.join]

/-- Settles O29: the load by the frame of the effect, the report of VSYNC by its four cases. -/
theorem tecrLoads : Obligations.TecrLoads := by
  intro s d v hr hs rfl
  obtain ⟨f, hexec⟩ : ∃ f, exec (.tecr d) s = .next (tecrEffect Config.tecrLayout d (exchange f s)) :=
    ⟨_, transmit_acted hr hs _ (tecrEffect Config.tecrLayout d)⟩
  obtain ⟨hcpu, hdev, hmode, hext, hmem, hport⟩ := tecrEffect_frame Config.tecrLayout d (exchange f s)
  have hvsync := vsyncOutcome_tecrEffect Config.tecrLayout d (exchange f s)
  simp only [VsyncOutcome, exchange_trace, exchange_mode, exchange_tecr] at hvsync
  obtain ⟨hchanged, hreport⟩ := hvsync
  refine ⟨_, hexec, ?_, hchanged, hreport, ?_⟩
  · rw [hport, exchange_tecr]
    rfl
  · simp [hcpu, hdev, hmode, hext, hport, SameMemory, hmem]

/-! ### The reset commands (R343, R344, R521 to R524) -/

/-- DSCK is still held after an enabling reset: debug mode is entered at once (R524). -/
def entersDebugAtReset (s : State) : Bool := s.ext.pins.dsckEnable && s.ext.pins.dsckHeld

theorem resetMachine_held {s : State} (h : entersDebugAtReset s = true) (k : ResetKind) :
    resetMachine k s =
      { enterDebug (some .devPortInt) (resetValues s).cpu.srr0 (recordCause .devPortInt (resetValues s)) with
        cpu.srr1 := (resetValues s).cpu.srr1 } :=
  if_pos h

theorem resetMachine_released {s : State} (h : entersDebugAtReset s = false) (k : ResetKind) :
    resetMachine k s = resetValues s :=
  if_neg (by simpa [entersDebugAtReset] using h)

/-- The registers, the modes, the port and the programming of the show cycles after a reset. -/
theorem resetMachine_values (k : ResetKind) (s : State) :
    (resetMachine k s).dev = { (resetValues s).dev with ecr := if entersDebugAtReset s then 1#32 else 0#32 } ∧
      (resetMachine k s).mode =
        ⟨s.ext.pins.dsckEnable, entersDebugAtReset s, entersDebugAtReset s, s.ext.pins.dsdiClock⟩ ∧
      (resetMachine k s).port = { State.reset.port with dsdo := s.port.dsdo } ∧
      (resetMachine k s).trace.isct = 0#3 := by
  cases h : entersDebugAtReset s
  · rw [resetMachine_released h]
    exact ⟨rfl, rfl, rfl, rfl⟩
  · rw [resetMachine_held h]
    exact ⟨by simp [resetValues, State.reset, eventMask], rfl, rfl, rfl⟩

/-- Where the CPU is after a reset: at the reset vector, or in debug mode waiting for the tool. -/
theorem resetMachine_cpu (k : ResetKind) (s : State) :
    if entersDebugAtReset s then
      (resetMachine k s).cpu.msr.pr = false ∧ (resetMachine k s).cpu.msr.ee = false ∧
        (resetMachine k s).cpu.wait = CpuWait.instr
    else (resetMachine k s).cpu.pc = Config.vecReset := by
  cases h : entersDebugAtReset s
  · rw [resetMachine_released h]
    rfl
  · rw [resetMachine_held h]
    exact ⟨rfl, rfl, rfl⟩

/-- Settles O31: both commands reset the machine, with the values of `resetMachine_values`. -/
theorem resetCommandsReset : Obligations.ResetCommandsReset := by
  intro s x i hr hs hi
  obtain ⟨f, k, hexec⟩ : ∃ f k, exec i s = .next (resetMachine k (exchange f s)) := by
    rcases hi with rfl | rfl
    · exact ⟨_, .hard, transmit_acted hr hs _ (resetMachine .hard)⟩
    · exact ⟨_, .soft, transmit_acted hr hs _ (resetMachine .soft)⟩
  obtain ⟨hdev, hmode, hport, hisct⟩ := resetMachine_values k (exchange f s)
  have hcpu := resetMachine_cpu k (exchange f s)
  have hpins : (s.ext.pins.dsckEnable && s.ext.pins.dsckHeld) = entersDebugAtReset (exchange f s) := by
    rw [entersDebugAtReset, exchange_ext]
  refine ⟨_, hexec, ?_⟩
  rw [hpins]
  have hmem : SameMemory s (resetMachine k (exchange f s)) := fun a => by rw [resetMachine_mem, exchange_mem]
  simp only [hdev, hmode, hport, hisct, hmem, resetValues, exchange_dev, exchange_ext, State.reset, true_and]
  cases h : entersDebugAtReset (exchange f s) <;> simpa [h] using hcpu

/-! ### The download commands (R361, R363, R364) -/

/-- A CPU that waits for an instruction gets the loop's `mfspr` from the port, after which the `stwu` is next. -/
theorem startDownloadEffect_supplies {s : State} (hdm : s.mode.dm = true) (hd : s.port.dlip = false)
    (hw : s.cpu.wait = CpuWait.instr) :
    startDownloadEffect s =
      { s with
        port.dlip := true, port.dlEnd := false, port.dlStore := true,
        cpu.wait := .none, cpu.dpir := some 0x7FF69AA6#32 } := by
  simp [startDownloadEffect, supplyWaiting, fetchFromPort, downloadWord, hdm, hd, hw]

/-- A CPU that does not finds it at its next fetch. -/
theorem startDownloadEffect_prepares {s : State} (hdm : s.mode.dm = true) (hd : s.port.dlip = false)
    (hw : s.cpu.wait ≠ CpuWait.instr) :
    startDownloadEffect s = { s with port.dlip := true, port.dlEnd := false, port.dlStore := false } := by
  simp [startDownloadEffect, supplyWaiting, hdm, hd, hw]

theorem startDownloadEffect_noop {s : State} (h : s.mode.dm = false ∨ s.port.dlip = true) :
    startDownloadEffect s = s := by
  rcases h with h | h <;> simp [startDownloadEffect, h]

theorem endDownloadEffect_eq (s : State) :
    endDownloadEffect s = { s with port.dlEnd := s.port.dlEnd || (s.mode.dm && s.port.dlip) } := by
  unfold endDownloadEffect
  cases s.mode.dm && s.port.dlip <;> simp

/-- Settles O33: the start by what the CPU waits for, the end by one equation. -/
theorem downloadCommands : Obligations.DownloadCommands := by
  intro s hr hs
  refine ⟨?_, ?_⟩
  · obtain ⟨f, hexec⟩ : ∃ f, exec .cmdStartDownload s = .next (startDownloadEffect (exchange f s)) :=
      ⟨_, transmit_acted hr hs _ startDownloadEffect⟩
    have hgprs : ∀ t : State, t.cpu.gpr = (exchange f s).cpu.gpr → SameGprs s t := fun t h q =>
      (readGpr_congr h q).trans (readGpr_exchange q f s)
    refine ⟨_, hexec, ?_⟩
    by_cases hstart : s.mode.dm = true ∧ s.port.dlip = false
    · obtain ⟨hdm, hd⟩ := hstart
      by_cases hw : s.cpu.wait = CpuWait.instr
      · rw [startDownloadEffect_supplies (by simpa using hdm) (by simpa using hd) (by simpa using hw)]
        simp [hgprs, SameExceptionRegs, SameMemory, hdm, hd, hw]
      · rw [startDownloadEffect_prepares (by simpa using hdm) (by simpa using hd) (by simpa using hw)]
        simp [hgprs, SameExceptionRegs, SameMemory, hdm, hd, hw]
    · have hnoop : s.mode.dm = false ∨ s.port.dlip = true :=
        (not_and_or.mp hstart).imp Bool.eq_false_of_not_eq_true Bool.eq_true_of_not_eq_false
      have hquiet : (s.mode.dm && !s.port.dlip) = false := by rcases hnoop with h | h <;> simp [h]
      have hdlip : (s.port.dlip || s.mode.dm) = s.port.dlip := by rcases hnoop with h | h <;> simp [h]
      rw [startDownloadEffect_noop (by simpa using hnoop)]
      simp [hgprs, SameExceptionRegs, SameMemory, hquiet, hdlip]
  · refine ⟨_, transmit_acted hr hs _ endDownloadEffect, ?_⟩
    rw [endDownloadEffect_eq]
    simp [SameMemory]

end Sys2Proof.Machine
end

section
/-! SUPPORT and PROOF. The fast download (42_development_port.md R361 to R364): the loop's two instructions as steps of
the CPU, and one round of the loop as a run of three steps. -/

namespace Sys2Proof.Machine

/-! ### Delivered instructions -/

/-- The CPU is in the download loop, in no trace mode, and nothing else is to happen. -/
structure InDownloadLoop (s : State) : Prop where
  debug : s.mode.dm = true
  inProgress : s.port.dlip = true
  noInput : s.ext.inputs = []
  noNmi : s.ext.nmi = false
  noMachineCheck : s.ext.machineCheck = false
  noException : s.ext.cpuExc = none
  running : s.cpu.checkStop = false
  noStep : s.cpu.msr.se = false
  noBranch : s.cpu.msr.be = false
  supervisor : s.cpu.msr.pr = false

section
variable {s t u : State}

theorem InDownloadLoop.of_kept (h : InDownloadLoop s) (hmode : t.mode = s.mode) (hext : t.ext = s.ext)
    (hmsr : t.cpu.msr = s.cpu.msr) (hstop : t.cpu.checkStop = s.cpu.checkStop) (hdlip : t.port.dlip = s.port.dlip) :
    InDownloadLoop t where
  debug := hmode ▸ h.debug
  inProgress := hdlip ▸ h.inProgress
  noInput := hext ▸ h.noInput
  noNmi := hext ▸ h.noNmi
  noMachineCheck := hext ▸ h.noMachineCheck
  noException := hext ▸ h.noException
  running := hstop ▸ h.running
  noStep := hmsr ▸ h.noStep
  noBranch := hmsr ▸ h.noBranch
  supervisor := hmsr ▸ h.supervisor

/-- The step of a delivered word is its meaning, with no trace event, and the next fetch. -/
theorem InDownloadLoop.step_delivered (h : InDownloadLoop s) {w : Word} {i : Instr} (hwait : s.cpu.wait = CpuWait.none)
    (hw : s.cpu.dpir = some w) (hi : decodeWord w = .ok i) (hu : exec i { s with cpu.dpir := none } = .next u) :
    step s = .next (finishDebug s (spend 1 u)) := by
  have hexec : execCpu (.table i) { s with cpu.dpir := none } = .next u := hu
  rw [Machine.step_delivered h.noInput h.running h.debug hwait hw h.noNmi h.noMachineCheck h.noException
    (decodeCpu_table hi), hexec, afterExecDebug, traceInDebug_off h.noStep h.noBranch]

/-- During a download a CPU that waits for nothing gets the loop's next word. -/
theorem finishDebug_supplies (hdm : u.mode.dm = true) (hwait : u.cpu.wait = CpuWait.none) (hd : u.port.dlip = true) :
    finishDebug s u =
      { finish s u with
        trace.pins := WatchPins.quiet, cpu.dpir := some (downloadWord u.port.dlStore),
        port.dlStore := !u.port.dlStore } := by
  rw [finishDebug, fetchFromPort_supplies (by simpa using hdm) (by simpa using hwait) (by simpa using hd)]
  simp

/-- A CPU that waits for data does not fetch. -/
theorem finishDebug_waiting (hwait : u.cpu.wait ≠ CpuWait.none) :
    finishDebug s u = { finish s u with trace.pins := WatchPins.quiet } := by
  rw [finishDebug, fetchFromPort_waiting (by simpa using hwait)]

/-! ### The two instructions of the loop (R162, R361) -/

theorem decodeWord_downloadStore : decodeWord (downloadWord true) = .ok (.stwu 31#5 4 30#5) :=
  decodeEncodeAgree (.stwu 31#5 4 30#5) rfl

theorem decodeWord_downloadRead : decodeWord (downloadWord false) = .ok (.mfsprDpdr 31#5) :=
  decodeEncodeAgree (.mfsprDpdr 31#5) rfl

/-- The loop's `stwu r31,4(r30)` stores x[31] at x[30] + 4 and updates x[30]; its `mfspr` is then delivered. -/
theorem InDownloadLoop.step_store (h : InDownloadLoop s) (hwait : s.cpu.wait = CpuWait.none)
    (hw : s.cpu.dpir = some (downloadWord true)) (hnext : s.port.dlStore = false) :
    ∃ t, step s = .next t ∧ InDownloadLoop t ∧ t.cpu.wait = CpuWait.none ∧ t.cpu.dpir = some (downloadWord false) ∧
      t.port.dlStore = true ∧ t.dev = s.dev ∧ t.mode = s.mode ∧
      t.mem = memWriteWord (readGpr 30#5 s + 4#32) (readGpr 31#5 s) s.mem ∧
      readGpr 30#5 t = readGpr 30#5 s + 4#32 ∧ SameGprsBut 30#5 s t := by
  have hexec : exec (.stwu 31#5 4 30#5) { s with cpu.dpir := none } =
      .next (completeSequential (writeGpr 30#5 (readGpr 30#5 s + 4#32)
        (storeWord (readGpr 30#5 s + 4#32) (readGpr 31#5 s) { s with cpu.dpir := none }))) := rfl
  have hstep := h.step_delivered hwait hw decodeWord_downloadStore hexec
  rw [finishDebug_supplies (by simpa using h.debug) (by simpa using hwait) (by simpa using h.inProgress)] at hstep
  refine ⟨_, hstep, h.of_kept (by simp) (by simp) (by simp) (by simp) (by simp), by simpa using hwait, by simp [hnext],
    by simp [hnext], by simp, by simp, by simp, ?_, fun q hq => ?_⟩
  · rw [readGpr_congr (s := writeGpr 30#5 (readGpr 30#5 s + 4#32) s) (by simp), readGpr_writeGpr_same]
  · rw [readGpr_congr (s := writeGpr 30#5 (readGpr 30#5 s + 4#32) s) (by simp), readGpr_writeGpr_other hq]

/-- The loop's `mfspr r31,DPDR` leaves the CPU waiting for data and changes no register. -/
theorem InDownloadLoop.step_read (h : InDownloadLoop s) (hwait : s.cpu.wait = CpuWait.none)
    (hw : s.cpu.dpir = some (downloadWord false)) :
    ∃ t, step s = .next t ∧ t.cpu.wait = .data 31#5 ∧ t.port = s.port ∧ t.dev = s.dev ∧ t.mode = s.mode ∧
      t.mem = s.mem ∧ SameGprs s t := by
  have hexec : exec (.mfsprDpdr 31#5) { s with cpu.dpir := none } =
      .next (completeSequential { s with cpu.dpir := none, cpu.wait := .data 31#5 }) :=
    exec_mfsprDpdr_inDebug 31#5 h.supervisor h.debug
  have hstep := h.step_delivered hwait hw decodeWord_downloadRead hexec
  rw [finishDebug_waiting (by simp)] at hstep
  exact ⟨_, hstep, by simp, by simp, by simp, by simp, by simp, fun q => by simp [readGpr]⟩

/-- The transmission of the data word fills x[31], and the port delivers the loop's `stwu`. -/
theorem InDownloadLoop.step_data {v : Word} (h : InDownloadLoop { s with ext.inputs := [] })
    (hin : s.ext.inputs = [.frame (.long (0b101#3 ++ v))]) (hwait : s.cpu.wait = .data 31#5) (hs : NoErrorStatus s)
    (he : s.port.dlEnd = false) (hstore : s.port.dlStore = true) :
    ∃ t, step s = .next t ∧ InDownloadLoop t ∧ t.cpu.wait = CpuWait.none ∧ t.cpu.dpir = some (downloadWord true) ∧
      t.port.dlStore = false ∧ t.dev = s.dev ∧ t.mode = s.mode ∧ t.mem = s.mem ∧ readGpr 31#5 t = v ∧
      SameGprsBut 31#5 s t := by
  have hdm : s.mode.dm = true := h.debug
  have hd : s.port.dlip = true := h.inProgress
  have hready : s.mode.dm = false ∨ s.cpu.wait ≠ CpuWait.none := .inr (by simp [hwait])
  obtain ⟨f, hexec⟩ := exec_data_acted (s := { s with ext.inputs := [] }) hready hs v
  rw [← stepTakesTransmission s _ [] _ hin hready (decodeEncodeAgree (.data v) rfl),
    dataEffect_reading (by simpa using hdm) (by simpa using hwait),
    completeRead_off (by simpa using h.noStep) (by simpa using h.noBranch),
    endDownload_continues (.inr (by simpa using he)),
    fetchFromPort_supplies (by simpa using hdm) rfl (by simpa using hd)] at hexec
  refine ⟨_, hexec, h.of_kept (by simp) (by simp) (by simp) (by simp) (by simp), rfl, by simp [hstore],
    by simp [hstore], by simp, by simp, by simp, ?_, fun q hq => ?_⟩
  · rw [readGpr_congr (s := writeGpr 31#5 v s) (by simp), readGpr_writeGpr_same]
  · rw [readGpr_congr (s := writeGpr 31#5 v s) (by simp), readGpr_writeGpr_other hq]

end

/-- Settles O34: the data word, the store of the loop and its next read, one after another. -/
theorem fastDownloadStoresWord : Obligations.FastDownloadStoresWord := by
  intro s v hdm hwait hs hd he hstore hin hnmi hcheck hexc hstop hse hbe hpr
  have hloop : InDownloadLoop { s with ext.inputs := [] } := ⟨hdm, hd, rfl, hnmi, hcheck, hexc, hstop, hse, hbe, hpr⟩
  obtain ⟨t1, hstep1, hloop1, hwait1, hdpir1, hnext1, hdev1, hmode1, hmem1, h31, hgprs1⟩ :=
    hloop.step_data hin hwait hs he hstore
  obtain ⟨t2, hstep2, hloop2, hwait2, hdpir2, hnext2, hdev2, hmode2, hmem2, h30, hgprs2⟩ :=
    hloop1.step_store hwait1 hdpir1 hnext1
  obtain ⟨t3, hstep3, hwait3, hport3, hdev3, hmode3, hmem3, hgprs3⟩ := hloop2.step_read hwait2 hdpir2
  have hrun : RunsTo 3 s t3 := by
    simp [RunsTo, Host.Core.run, core, hstep1, hstep2, hstep3]
  have hbase : readGpr 30#5 t1 = readGpr 30#5 s := hgprs1 30#5 (by decide)
  have hmem : t3.mem = memWriteWord (readGpr 30#5 s + 4#32) v s.mem := by
    rw [hmem3, hmem2, hmem1, hbase, h31]
  refine ⟨t3, hrun, ?_, fun b h0 h1 h2 h3 => ?_, ?_, ?_, fun q hq30 hq31 => ?_, ?_, hwait3, ?_, ?_, ?_⟩
  · rw [hmem, memReadWord_memWriteWord]
  · rw [hmem, memWriteWord_other _ _ _ (by simpa [byteAddr] using h0) h1 h2 h3]
  · rw [hgprs3, h30, hbase]
  · rw [hgprs3, hgprs2 31#5 (by decide), h31]
  · rw [hgprs3, hgprs2 q hq30, hgprs1 q hq31]
  · rw [hdev3, hdev2, hdev1]
  · rw [hport3, hloop2.inProgress]
  · rw [hport3, hnext2]
  · rw [hmode3, hmode2, hmode1]

end Sys2Proof.Machine
end

section
/-! SUPPORT and PROOF. The consistency of the modes over a step (43_cpu_instructions.md R391, 60_exceptions.md R452,
R461, R470, R471, R482): every operation keeps it. In debug mode it is a matter of the mode latches and MSR.EE alone
(`InDebugConsistently`), outside it of the causes and of what the CPU waits for (`OutsideConsistently`). -/

namespace Sys2Proof.Machine

/-! ### Consistent inside and outside debug mode -/

/-- What consistent modes are in debug mode. -/
structure InDebugConsistently (s : State) : Prop where
  inside : s.mode.dm = true
  enabled : s.mode.dme = true
  frozen : s.mode.frz = true
  masked : s.cpu.msr.ee = false

/-- What consistent modes are outside debug mode. -/
structure OutsideConsistently (s : State) : Prop where
  outside : s.mode.dm = false
  wait : s.cpu.wait = CpuWait.none
  dpir : s.cpu.dpir = none
  noCause : s.mode.dme = true → s.dev.ecr &&& s.dev.der = 0#32

theorem modesConsistent_iff {s : State} : ModesConsistent s ↔ InDebugConsistently s ∨ OutsideConsistently s where
  mp h := by
    cases hdm : s.mode.dm with
    | true => exact .inl ⟨hdm, h.enabled hdm, h.frozen hdm, h.masked hdm⟩
    | false => exact .inr ⟨hdm, (h.notWaiting hdm).1, (h.notWaiting hdm).2, fun he => h.noCauseLeft he hdm⟩
  mpr h := by
    rcases h with ⟨hdm, he, hf, hm⟩ | ⟨hdm, hw, hd, hn⟩
    · exact ⟨fun _ => he, fun _ => hf, fun _ => hm, by simp [hdm], by simp [hdm]⟩
    · exact ⟨by simp [hdm], by simp [hdm], by simp [hdm], fun _ => ⟨hw, hd⟩, fun he _ => hn he⟩

section
variable {s t : State}

theorem InDebugConsistently.consistent (h : InDebugConsistently s) : ModesConsistent s :=
  modesConsistent_iff.mpr (.inl h)

theorem OutsideConsistently.consistent (h : OutsideConsistently s) : ModesConsistent s :=
  modesConsistent_iff.mpr (.inr h)

theorem ModesConsistent.inDebug (h : ModesConsistent s) (hdm : s.mode.dm = true) : InDebugConsistently s :=
  ⟨hdm, h.enabled hdm, h.frozen hdm, h.masked hdm⟩

theorem ModesConsistent.outsideDebug (h : ModesConsistent s) (hdm : s.mode.dm = false) : OutsideConsistently s :=
  ⟨hdm, (h.notWaiting hdm).1, (h.notWaiting hdm).2, fun he => h.noCauseLeft he hdm⟩

/-- In debug mode nothing else matters than the mode latches and MSR.EE. -/
theorem InDebugConsistently.keep (h : InDebugConsistently s) (hmode : t.mode = s.mode)
    (hee : t.cpu.msr.ee = s.cpu.msr.ee) : InDebugConsistently t := by
  obtain ⟨hdm, he, hf, hm⟩ := h
  exact ⟨hmode ▸ hdm, hmode ▸ he, hmode ▸ hf, hee ▸ hm⟩

theorem ModesConsistent.keep_inDebug (h : ModesConsistent s) (hdm : s.mode.dm = true) (hmode : t.mode = s.mode)
    (hee : t.cpu.msr.ee = s.cpu.msr.ee) : ModesConsistent t :=
  ((h.inDebug hdm).keep hmode hee).consistent

/-- The part of the state that the consistency of the modes speaks of. -/
structure ModeView where
  mode : Mode
  ee : Bool
  wait : CpuWait
  dpir : Option Word
  ecr : Word
  der : Word

/-- The view of a machine state. -/
def modeView (s : State) : ModeView where
  mode := s.mode
  ee := s.cpu.msr.ee
  wait := s.cpu.wait
  dpir := s.cpu.dpir
  ecr := s.dev.ecr
  der := s.dev.der

theorem ModesConsistent.of_view (hs : ModesConsistent s) (h : modeView t = modeView s) : ModesConsistent t := by
  injection h with hmode hee hwait hdpir hecr hder
  obtain ⟨he, hf, hm, hw, hn⟩ := hs
  exact ⟨by rwa [hmode], by rwa [hmode], by rwa [hmode, hee], by rwa [hmode, hwait, hdpir], by rwa [hmode, hecr, hder]⟩

end

/-! ### Taking an exception -/

theorem consistent_enterDebug (e : Option Event) (a : Word) {s : State} (h : s.mode.dme = true) :
    ModesConsistent (enterDebug e a s) :=
  InDebugConsistently.consistent ⟨rfl, h, rfl, rfl⟩

/-- Causes whose DER bits are 0 enable nothing when they are recorded. -/
theorem foldl_eventMask_and (es : List Event) (der : Word) (h : ∀ e ∈ es, der &&& eventMask e = 0#32) (ecr : Word) :
    es.foldl (fun b e => b ||| eventMask e) ecr &&& der = ecr &&& der := by
  induction es generalizing ecr with
  | nil => rfl
  | cons e es ih =>
    rw [List.foldl_cons, ih fun x hx => h x (.tail _ hx), BitVec.and_or_distrib_right, BitVec.and_comm (eventMask e),
      h e (.head _), BitVec.or_zero]

theorem and_eventMask_of_not_enabled {e : Event} {s : State} (h : eventEnabled e s = false) :
    s.dev.der &&& eventMask e = 0#32 := by
  simpa [eventEnabled] using h

/-- An event leads into debug mode, or it is not enabled and leaves no enabled cause (R450). -/
theorem ModesConsistent.after_raiseAll {s : State} (hs : ModesConsistent s) (e : Event) (es : List Event)
    (resume : Word) :
    ModesConsistent (raiseAll e es resume s) := by
  have hdev := raiseAll_dev e es resume s
  rcases raiseAll_cases e es resume s with ⟨hdm, b, p, h⟩ | ⟨_, hdme, _, e', a, b, z, h⟩ | ⟨hdm, hno, e', a, b, z, h⟩
  · exact hs.keep_inDebug hdm (by simp [h]) (by simp [h])
  · have hentered : ModesConsistent (enterDebug (some e') a
        { s with dev := { s.dev with ecr := b }, mode := { s.mode with frz := z } }) := consistent_enterDebug _ _ hdme
    rw [h]
    exact hentered.of_view rfl
  · obtain ⟨_, hwait, hdpir, hcause⟩ := hs.outsideDebug hdm
    refine OutsideConsistently.consistent ⟨by simp [h, hdm], by simp [h, hwait], by simp [hdpir], fun hdme => ?_⟩
    rw [raiseAll_dme] at hdme
    have hnone : ∀ x ∈ e :: es, s.dev.der &&& eventMask x = 0#32 := fun x hx =>
      and_eventMask_of_not_enabled (by simpa [hdme] using List.any_eq_false.mp (hno.resolve_left (by simp [hdme])) x hx)
    rw [hdev]
    exact (foldl_eventMask_and _ _ hnone _).trans (hcause hdme)

theorem ModesConsistent.after_raise {s : State} (hs : ModesConsistent s) (e : Event) (resume : Word) :
    ModesConsistent (raise e resume s) := hs.after_raiseAll e [] resume

/-- One recorded cause that is not enabled leaves no enabled cause. -/
theorem OutsideConsistently.after_recordCause {s : State} (hs : OutsideConsistently s) {e : Event}
    (he : s.mode.dme = false ∨ eventEnabled e s = false) : OutsideConsistently (recordCause e s) := by
  obtain ⟨hdm, hwait, hdpir, hcause⟩ := hs
  refine ⟨hdm, hwait, hdpir, fun hdme => ?_⟩
  have hnone : ∀ x ∈ [e], s.dev.der &&& eventMask x = 0#32 := fun x hx => by
    cases List.mem_singleton.mp hx
    exact and_eventMask_of_not_enabled (he.resolve_left (by simpa using hdme))
  exact (foldl_eventMask_and [e] _ hnone _).trans (hcause hdme)

theorem OutsideConsistently.after_regularException {s : State} (hs : OutsideConsistently s) (e : Event) (a : Word) :
    OutsideConsistently (regularException e a s) := by
  obtain ⟨hdm, hwait, hdpir, hcause⟩ := hs
  exact ⟨by simp [hdm], by simp [hwait], by simp [hdpir], by simpa using hcause⟩

/-- A machine check condition likewise; check stop is reached only where it is not enabled (R455). -/
theorem ModesConsistent.after_raiseMachineCheck {s : State} (hs : ModesConsistent s) (async : Bool) (resume : Word) :
    ModesConsistent (raiseMachineCheck async resume s) := by
  rcases raiseMachineCheck_cases async resume s with
    ⟨hdm, h⟩ | ⟨_, hdme, _, h⟩ | ⟨hdm, _, hno, h⟩ | ⟨hdm, _, hno, h⟩ <;> rw [h]
  · exact hs.keep_inDebug hdm rfl rfl
  · have hentered : ModesConsistent (enterDebug (some (machineCheckEvent s)) (machineCheckSrr0 async resume s)
        (recordCause (machineCheckEvent s) s)) := consistent_enterDebug _ _ hdme
    exact hentered.of_view rfl
  · have hreg := ((hs.outsideDebug hdm).after_recordCause hno).after_regularException .machineCheck
      (machineCheckSrr0 async resume s)
    exact hreg.consistent.of_view rfl
  · exact ((hs.outsideDebug hdm).after_recordCause hno).consistent.of_view rfl

theorem modeView_saveFaultAddress (e : CpuExc) (s : State) : modeView (saveFaultAddress e s) = modeView s := by
  cases e <;> rfl

theorem ModesConsistent.after_raiseCpuExc {s : State} (hs : ModesConsistent s) (e : CpuExc) :
    ModesConsistent (raiseCpuExc e s) := by
  have hsaved := hs.of_view (modeView_saveFaultAddress e s)
  cases e with
  | machineCheck => exact hsaved.after_raiseMachineCheck _ _
  | _ => exact hsaved.after_raise _ _

/-- In debug mode an exception of the CPU is recorded (R460). -/
theorem raiseCpuExc_inDebug (e : CpuExc) {s : State} (hdm : s.mode.dm = true) :
    (raiseCpuExc e s).mode = s.mode ∧ (raiseCpuExc e s).cpu.msr = s.cpu.msr := by
  have hsaved : (saveFaultAddress e s).mode.dm = true := by cases e <;> exact hdm
  cases e with
  | machineCheck =>
    have hrecorded : raiseCpuExc .machineCheck s =
        markExcepted (recordInDebug _ (saveFaultAddress .machineCheck s)) := if_pos hsaved
    rw [hrecorded]
    exact ⟨rfl, rfl⟩
  | _ =>
    rw [raiseCpuExc, raise_inDebug hsaved]
    exact ⟨rfl, rfl⟩

theorem ModesConsistent.after_raiseAsync {s : State} (hs : ModesConsistent s) (e : Event) :
    ModesConsistent (raiseAsync e s) := by
  unfold raiseAsync
  split
  · exact (hs.of_view (modeView_saveFaultAddress .machineCheck s)).after_raiseMachineCheck _ _
  · exact hs.after_raise _ _

theorem ModesConsistent.after_takeAsync {s : State} (hs : ModesConsistent s) (e : Event) :
    ModesConsistent (takeAsync e s) := by
  have haccepted : ModesConsistent { acceptAsync e s with trace.pins := WatchPins.quiet } := hs.of_view rfl
  exact (haccepted.after_raiseAsync e).of_view rfl

/-! ### Returning from an exception -/

/-- `rfi` leaves debug mode only where no enabled cause is left (R471). -/
theorem ModesConsistent.after_returnFromException {s : State} (hs : ModesConsistent s) (hd : s.cpu.dpir = none) :
    ModesConsistent (returnFromException s) := by
  unfold returnFromException
  split
  · next hdm =>
    have hdme : s.mode.dme = true := hs.enabled hdm
    split
    · exact consistent_enterDebug _ _ (by simpa using hdme)
    · next hleft =>
      have hcause : s.dev.ecr &&& s.dev.der = 0#32 := by simpa [hdme, causePending] using hleft
      exact OutsideConsistently.consistent ⟨by simp, by simp, by simpa using hd, fun _ => by simpa using hcause⟩
  · next hdm =>
    obtain ⟨hdm, hwait, hdpir, hcause⟩ := hs.outsideDebug (by simpa using hdm)
    exact OutsideConsistently.consistent
      ⟨by simpa using hdm, by simpa using hwait, by simpa using hdpir, by simpa using hcause⟩

/-! ### The instructions of the CPU -/

@[simp] theorem modeView_completeSequential (s : State) : modeView (completeSequential s) = modeView s := by
  simp [modeView]

@[simp] theorem modeView_completeMarked (s : State) : modeView (completeMarked s) = modeView s := by
  simp [modeView]

@[simp] theorem modeView_mtsprComplete (n : Spr) (s : State) : modeView (mtsprComplete n s) = modeView s := by
  simp [modeView, mtsprComplete_cpu]

/-- No cause at all is left. -/
theorem ModesConsistent.after_clearEcrOnRead {s : State} (hs : ModesConsistent s) :
    ModesConsistent (clearEcrOnRead s) := by
  unfold clearEcrOnRead
  split
  · exact { hs with noCauseLeft := fun _ _ => BitVec.zero_and }
  · exact hs

theorem ModesConsistent.after_mfspr {n : Spr} {rd : Reg} {s t : State} (hs : ModesConsistent s)
    (h : exec (.mfspr rd n) s = .next t) : ModesConsistent t := by
  by_cases hn : n = .dpdr
  · subst hn
    simp only [Instr.mfspr, exec, execMfsprDpdr] at h
    split at h
    · cases h; exact hs.after_raise _ _
    · split at h <;> cases h
      · next hdm => exact hs.keep_inDebug hdm (by simp) (by simp)
      · exact hs.of_view (modeView_completeSequential _)
  · obtain ⟨v, k, he⟩ := exec_mfspr hn rd s
    rw [he] at h
    split at h <;> cases h
    · exact hs.after_raise _ _
    · have hread : ModesConsistent (if n = .ecr then clearEcrOnRead s else s) := by
        split
        · exact hs.after_clearEcrOnRead
        · exact hs
      exact hread.of_view (modeView_completeSequential _)

/-- A write of a register is performed in debug mode or with debug mode disabled, where the causes do not matter. -/
theorem ModesConsistent.after_writtenState {s : State} (hs : ModesConsistent s) (n : Spr) (v : Word)
    (h : s.mode.dme = false ∨ s.mode.dm = true) : ModesConsistent (writtenState n v s) := by
  cases hdm : s.mode.dm with
  | true => exact hs.keep_inDebug hdm (by simp) (by simp)
  | false =>
    obtain ⟨_, hwait, hdpir, _⟩ := hs.outsideDebug hdm
    have hdme : s.mode.dme = false := h.resolve_right (by simp [hdm])
    exact OutsideConsistently.consistent
      ⟨by simpa using hdm, by simpa using hwait, by simpa using hdpir, by simp [hdme]⟩

theorem ModesConsistent.after_mtspr {n : Spr} {rs : Reg} {s t : State} (hs : ModesConsistent s)
    (h : exec (.mtspr rs n) s = .next t) : ModesConsistent t := by
  rw [exec_mtspr] at h
  split at h
  · cases h; exact hs.after_raise _ _
  · split at h <;> cases h
    · exact hs.of_view (modeView_mtsprComplete n s)
    · next hperformed =>
      have hwritten := hs.after_writtenState n (readGpr rs s)
        (by simpa [Decidable.or_iff_not_imp_left] using hperformed)
      exact hwritten.of_view (modeView_mtsprComplete n _)

/-- To set MSR.EE in debug mode is refused (R462). -/
theorem ModesConsistent.after_mtmsr {rs : Reg} {s t : State} (hs : ModesConsistent s)
    (h : exec (.mtmsr rs) s = .next t) : ModesConsistent t := by
  simp only [exec, execMtmsr] at h
  split at h
  · cases h; exact hs.after_raise _ _
  · split at h <;> cases h
    next hee =>
    have hset : ModesConsistent { s with cpu.msr := msrOfWord (readGpr rs s) } :=
      { hs with masked := fun hdm => by simpa [show s.mode.dm = true from hdm] using hee }
    exact hset.of_view (modeView_completeMarked _)

theorem ModesConsistent.after_rfi {s t : State} (hs : ModesConsistent s) (hd : s.cpu.dpir = none)
    (h : exec .rfi s = .next t) : ModesConsistent t := by
  simp only [exec, execRfi] at h
  split at h <;> cases h
  · exact hs.after_raise _ _
  · exact hs.after_returnFromException hd

/-- A row of the table that a CPU word decodes to. -/
theorem ModesConsistent.after_exec_word {w : Word} {j : Instr} {s t : State} (hs : ModesConsistent s)
    (hd : s.cpu.dpir = none) (hj : decodeWord w = .ok j) (h : exec j s = .next t) : ModesConsistent t := by
  rcases decodeWord_cases hj with ⟨n, r, rfl⟩ | ⟨n, r, rfl⟩ | ⟨r, rfl⟩ | rfl | rfl | rfl | ⟨rs, d, ra, rfl⟩
  · exact hs.after_mfspr h
  · exact hs.after_mtspr h
  · exact hs.after_mtmsr h
  · cases h; exact hs.of_view (modeView_completeSequential _)
  · exact hs.after_rfi hd h
  · cases h; exact hs.of_view (modeView_completeMarked _)
  · cases h; exact hs.of_view (modeView_completeSequential _)

@[simp] theorem modeView_writeSave (n : SaveReg) (v : Word) (s : State) : modeView (writeSave n v s) = modeView s := by
  cases n <;> rfl

@[simp] theorem modeView_drawSave (n : SaveReg) (s : State) : modeView (drawSave n s) = modeView s := by
  cases n <;> rfl

theorem ModesConsistent.after_moveException {s : State} (hs : ModesConsistent s) {draw : State → State}
    (hdraw : ∀ u, modeView (draw u) = modeView u) : ModesConsistent (moveException draw s) := by
  have hp : ModesConsistent (programException s) := hs.after_raise _ _
  unfold moveException
  split
  · exact hp.of_view (hdraw _)
  · exact hp

/-- What the CPU executes for a word, which the port holds no longer. -/
theorem ModesConsistent.after_execCpu {w : Word} {i : CpuInstr} {s t : State} (hs : ModesConsistent s)
    (hd : s.cpu.dpir = none) (hi : decodeCpu w = some i) (h : execCpu i s = .next t) : ModesConsistent t := by
  rcases execCpu_next h with ⟨j, rfl, hj⟩ | ⟨rd, n, rfl, rfl⟩ | ⟨n, rs, rfl, rfl⟩
  · rcases decodeCpu_cases hi with ⟨j', hw, hjj⟩ | ⟨_, _, hne⟩ | ⟨_, _, hne⟩
    · cases hjj; exact hs.after_exec_word hd hw hj
    · cases hne
    · cases hne
  · split
    · exact hs.after_moveException (draw := fun u => writeGpr rd (freeWord 0 u) u) fun _ => rfl
    · exact hs.of_view (modeView_completeSequential _)
  · split
    · exact hs.after_moveException (modeView_drawSave n)
    · exact hs.of_view ((modeView_completeSequential _).trans (modeView_writeSave n _ s))

/-! ### The CPU's step -/

theorem modeView_settleIfm (i : Option CpuInstr) (s t : State) : modeView (settleIfm i s t) = modeView t := by
  unfold settleIfm
  split <;> rfl

theorem modeView_passBreak (s : State) : modeView (passBreak s) = modeView s := by
  unfold passBreak
  split <;> rfl

@[simp] theorem modeView_finish (s t : State) : modeView (finish s t) = modeView t := by
  simp [modeView]

theorem ModesConsistent.after_takeInstrBreak {s : State} (hs : ModesConsistent s) (i : Option CpuInstr) :
    ModesConsistent (takeInstrBreak i s) := by
  unfold takeInstrBreak
  refine ModesConsistent.after_raise ?_ _ _
  exact hs.of_view (modeView_settleIfm i s _)

theorem ModesConsistent.after_raiseAfter {t : State} (ht : ModesConsistent t) (brk : Option Word) (trace : Bool) :
    ModesConsistent (raiseAfter brk trace t) := by
  have hbar : ∀ a, ModesConsistent { t with dev.bar := a } := fun a => ht.of_view rfl
  cases brk <;> cases trace
  case none.false => exact ht
  case none.true => exact ht.after_raise _ _
  case some.false a => exact (hbar a).after_raise _ _
  case some.true a => exact (hbar a).after_raiseAll _ _ _

theorem ModesConsistent.after_retire {t : State} (ht : ModesConsistent t) (i : CpuInstr) (s : State) :
    ModesConsistent (retire i s t) := by
  have hreported : ModesConsistent (reportRetired i s t (watched s t)) := ht.of_view rfl
  unfold retire
  split
  · exact ht
  · exact hreported.after_raiseAfter _ _

theorem ModesConsistent.after_runFetched {i : Option CpuInstr} {s t : State} (hs : ModesConsistent s)
    (hd : s.cpu.dpir = none) (hi : ∀ j, i = some j → ∃ w, decodeCpu w = some j) (h : runFetched i s = .next t) :
    ModesConsistent t := by
  have hpass : ModesConsistent (passBreak s) := hs.of_view (modeView_passBreak s)
  rcases runFetched_next h with ⟨_, rfl⟩ | ⟨_, e, _, rfl⟩ | ⟨_, _, j, u, rfl, hu, rfl⟩
  · exact (hs.after_takeInstrBreak i).of_view (modeView_finish _ _)
  · have haccepted : ModesConsistent { passBreak s with ext.cpuExc := none } := hpass.of_view rfl
    have hexc := haccepted.after_raiseCpuExc e
    exact hexc.of_view ((modeView_finish _ _).trans (modeView_settleIfm i s _))
  · obtain ⟨w, hw⟩ := hi j rfl
    have hexec : ModesConsistent u := hpass.after_execCpu (by simpa using hd) hw hu
    exact ((hexec.of_view (modeView_settleIfm _ s u)).after_retire j s).of_view (modeView_finish _ _)

theorem ModesConsistent.after_runStep {s t : State} (hs : ModesConsistent s) (hdm : s.mode.dm = false)
    (h : runStep s = .next t) : ModesConsistent t := by
  have hfetch : ModesConsistent (fetched s) := hs.of_view (by simp [modeView])
  have hdpir : (fetched s).cpu.dpir = none := by simpa using (hs.outsideDebug hdm).dpir
  rcases runStep_next h with ⟨e, es, _, rfl⟩ | ⟨_, w, _, hrun⟩ | ⟨_, _, _, hrun⟩
  · exact hs.after_takeAsync _
  · exact hfetch.after_runFetched hdpir (fun _ hj => ⟨w, hj⟩) hrun
  · exact hfetch.after_runFetched hdpir (fun _ hj => by cases hj) hrun

/-- The next fetch from the port is made in debug mode only. -/
theorem ModesConsistent.after_fetchFromPort {s : State} (hs : ModesConsistent s) :
    ModesConsistent (fetchFromPort s) := by
  cases hdm : s.mode.dm with
  | true => exact hs.keep_inDebug hdm (by simp) (by simp)
  | false => rwa [fetchFromPort_outside hdm]

theorem ModesConsistent.after_finishDebug {t : State} (ht : ModesConsistent t) (s : State) :
    ModesConsistent (finishDebug s t) := by
  have hquiet : ModesConsistent { finish s t with trace.pins := WatchPins.quiet } := ht.of_view (modeView_finish s t)
  exact hquiet.after_fetchFromPort

theorem ModesConsistent.after_traceInDebug {t : State} (ht : ModesConsistent t) (i : CpuInstr) (s : State) :
    ModesConsistent (traceInDebug i s t) := by
  rcases traceInDebug_cases i s t with h | ⟨hdm, _, _, _, h⟩ <;> rw [h]
  · exact ht.of_view rfl
  · exact ht.keep_inDebug hdm (by simp) (by simp)

theorem ModesConsistent.after_recordMachineCheck {s : State} (hs : ModesConsistent s) (hdm : s.mode.dm = true) :
    ModesConsistent (recordMachineCheck s) :=
  hs.keep_inDebug hdm rfl rfl

theorem ModesConsistent.after_debugStep {s t : State} (hs : ModesConsistent s) (hdm : s.mode.dm = true)
    (h : debugStep s = .next t) : ModesConsistent t := by
  rcases debugStep_next h with ⟨_, rfl⟩ | ⟨_, _, rfl⟩ | ⟨_, _, _, rfl⟩ | ⟨_, _, w, e, _, _, rfl⟩ |
    ⟨_, _, w, i, u, _, _, hi, hu, rfl⟩
  · exact hs.keep_inDebug hdm rfl rfl
  · exact (hs.after_recordMachineCheck hdm).of_view rfl
  · exact hs.after_fetchFromPort
  · have haccepted : ModesConsistent { s with ext.cpuExc := none, cpu.dpir := none } := hs.keep_inDebug hdm rfl rfl
    obtain ⟨hmode, hmsr⟩ := raiseCpuExc_inDebug e (s := { s with ext.cpuExc := none, cpu.dpir := none }) hdm
    have hexc : ModesConsistent (exceptInDebug e (decodeCpu w) { s with ext.cpuExc := none, cpu.dpir := none }) :=
      haccepted.keep_inDebug hdm (by simp [exceptInDebug, hmode]) (by simp [exceptInDebug, hmsr])
    exact hexc.after_finishDebug s
  · have htaken : ModesConsistent { s with cpu.dpir := none } := hs.keep_inDebug hdm rfl rfl
    exact ((htaken.after_execCpu rfl hi hu).after_traceInDebug i s).after_finishDebug s

theorem ModesConsistent.after_cpuStep {s t : State} (hs : ModesConsistent s) (h : cpuStep s = .next t) :
    ModesConsistent t := by
  obtain ⟨_, _, ⟨hdm, hstep⟩ | ⟨hdm, hstep⟩⟩ := cpuStep_next h
  · exact hs.after_debugStep hdm hstep
  · exact hs.after_runStep hdm hstep

/-! ### The transmissions and the reset -/

/-- A reset leaves no cause and nothing to wait for (R521), or, with DSCK still held, enters debug mode (R524). -/
theorem consistent_resetMachine (k : ResetKind) (s : State) : ModesConsistent (resetMachine k s) := by
  have hvalues : ModesConsistent (resetValues s) :=
    OutsideConsistently.consistent ⟨rfl, rfl, rfl, fun _ => BitVec.zero_and⟩
  have hdme : (resetValues s).mode.dme = s.ext.pins.dsckEnable := rfl
  unfold resetMachine
  generalize resetValues s = r at hvalues hdme ⊢
  dsimp only
  split
  · next hheld =>
    have henabled : r.mode.dme = true := hdme.trans (Bool.and_eq_true_iff.mp hheld).1
    have hentered : ModesConsistent (enterDebug (some .devPortInt) r.cpu.srr0 (recordCause .devPortInt r)) :=
      consistent_enterDebug _ _ henabled
    exact hentered.of_view rfl
  · exact hvalues

/-- No transmission but a reset changes the mode latches or the MSR. -/
theorem Effect.mode_and_msr {e : State → State} (he : Effect e) (s : State) :
    (∃ k, e = resetMachine k) ∨ ((e s).mode = s.mode ∧ (e s).cpu.msr = s.cpu.msr) := by
  cases he with
  | nop => exact .inr ⟨rfl, rfl⟩
  | instr w =>
    refine .inr ?_
    unfold instrEffect
    split
    · split
      · exact ⟨rfl, rfl⟩
      · simp [dpdrBusError]
      · exact ⟨rfl, rfl⟩
    · exact ⟨rfl, rfl⟩
  | data v =>
    refine .inr ?_
    unfold dataEffect
    split
    · split <;> simp
    · exact ⟨rfl, rfl⟩
  | tecr l d =>
    refine .inr ?_
    simp only [tecrEffect]
    split <;> simp
  | brk n m => exact .inr ⟨rfl, rfl⟩
  | start =>
    refine .inr ?_
    unfold startDownloadEffect supplyWaiting
    split
    · split <;> simp
    · exact ⟨rfl, rfl⟩
  | stop =>
    refine .inr ?_
    unfold endDownloadEffect
    split <;> exact ⟨rfl, rfl⟩
  | reset k => exact .inl ⟨k, rfl⟩

/-- Outside debug mode the effect leaves the CPU, the special registers and the modes alone. -/
def PortOnlyOutside (e : State → State) : Prop :=
  ∀ s, s.mode.dm = false → (e s).cpu = s.cpu ∧ (e s).dev = s.dev ∧ (e s).mode = s.mode

theorem portOnlyOutside_nop : PortOnlyOutside (fun t => t) := fun _ _ => ⟨rfl, rfl, rfl⟩

theorem portOnlyOutside_instr (w : Word) : PortOnlyOutside (instrEffect w) := fun s hdm => by
  rw [instrEffect_outside hdm]
  exact ⟨rfl, rfl, rfl⟩

theorem portOnlyOutside_data (v : Word) : PortOnlyOutside (dataEffect v) := fun s hdm => by
  rw [dataEffect_outside hdm]
  exact ⟨rfl, rfl, rfl⟩

theorem portOnlyOutside_tecr (l : TecrLayout) (d : BitVec 7) : PortOnlyOutside (tecrEffect l d) := fun s _ => by
  simp only [tecrEffect]
  split <;> simp

theorem portOnlyOutside_brk (n m : Bool) : PortOnlyOutside (brkEffect n m) := fun _ _ => ⟨rfl, rfl, rfl⟩

theorem portOnlyOutside_start : PortOnlyOutside startDownloadEffect := fun s hdm => by
  rw [startDownloadEffect_noop (.inl hdm)]
  exact ⟨rfl, rfl, rfl⟩

theorem portOnlyOutside_stop : PortOnlyOutside endDownloadEffect := fun s hdm => by
  simp [endDownloadEffect, hdm]

/-- Outside debug mode no transmission but a reset reaches the CPU or the causes (R336, R357, R364). -/
theorem Effect.outside {e : State → State} (he : Effect e) : (∃ k, e = resetMachine k) ∨ PortOnlyOutside e := by
  cases he with
  | nop => exact .inr portOnlyOutside_nop
  | instr w => exact .inr (portOnlyOutside_instr w)
  | data v => exact .inr (portOnlyOutside_data v)
  | tecr l d => exact .inr (portOnlyOutside_tecr l d)
  | brk n m => exact .inr (portOnlyOutside_brk n m)
  | start => exact .inr portOnlyOutside_start
  | stop => exact .inr portOnlyOutside_stop
  | reset k => exact .inl ⟨k, rfl⟩

theorem ModesConsistent.after_effect {s : State} (hs : ModesConsistent s) {e : State → State} (he : Effect e) :
    ModesConsistent (e s) := by
  cases hdm : s.mode.dm with
  | true =>
    rcases he.mode_and_msr s with ⟨k, rfl⟩ | ⟨hmode, hmsr⟩
    · exact consistent_resetMachine k s
    · exact hs.keep_inDebug hdm hmode (by rw [hmsr])
  | false =>
    rcases he.outside with ⟨k, rfl⟩ | hport
    · exact consistent_resetMachine k s
    · obtain ⟨hcpu, hdev, hmode⟩ := hport s hdm
      exact hs.of_view (by simp [modeView, hcpu, hdev, hmode])

theorem ModesConsistent.after_transmission {i : Instr} {s t : State} (hs : ModesConsistent s)
    (hi : isTransmission i = true) (h : exec i s = .next t) : ModesConsistent t := by
  obtain ⟨f, e, he, hexec⟩ := exec_transmission hi
  rw [hexec] at h
  obtain ⟨_, rfl⟩ := transmit_eq_next.mp h
  have hexchange : ModesConsistent (exchange f s) := hs.of_view (by simp [modeView])
  split
  · exact hexchange.after_effect he
  · exact hexchange

theorem ModesConsistent.after_lineChange {s t : State} (hs : ModesConsistent s) (h : LineChange s t) :
    ModesConsistent t := by
  obtain ⟨x, rfl | ⟨hdm, rfl | rfl⟩⟩ := h
  · exact hs.of_view rfl
  · exact hs.keep_inDebug hdm rfl rfl
  · exact hs.keep_inDebug hdm rfl rfl

/-- Settles O9: debug mode is entered only where it is enabled and left only where no enabled cause is left; outside it
an event that is not enabled leaves no enabled cause. -/
theorem stepKeepsModesConsistent : Obligations.StepKeepsModesConsistent := by
  intro s t hs h
  rcases step_next h with hcpu | ⟨rest, _, hcpu⟩ | ⟨f, rest, i, _, _, hdec, hexec⟩ | hline | ⟨k, rest, _, rfl⟩
  · exact hs.after_cpuStep hcpu
  · have hrun : ModesConsistent { s with ext.inputs := rest } := hs.of_view rfl
    exact hrun.after_cpuStep hcpu
  · have htaken : ModesConsistent { s with ext.inputs := rest } := hs.of_view rfl
    exact htaken.after_transmission (decode_frame_transmission hdec) hexec
  · exact hs.after_lineChange hline
  · exact consistent_resetMachine k _

end Sys2Proof.Machine
end

section
/-! SUPPORT and PROOF. The debug programming under debug mode enable, outside debug mode (43_cpu_instructions.md R393,
R394): an `mtspr` is not performed, so an instruction changes at most the ECR; the rest of the step changes the counts,
BAR and IFM. -/

namespace Sys2Proof.Machine

/-! ### The debug programming -/

/-- The debug programming: the comparators, DER, the control registers and the sources of the counters; of ICTRL all but
IFM, which the hardware clears (R262). -/
structure DebugProgram where
  cmpa : BitVec 30
  cmpb : BitVec 30
  cmpc : BitVec 30
  cmpd : BitVec 30
  cmpe : Word
  cmpf : Word
  cmpg : Word
  cmph : Word
  der : Word
  lctrl1 : Word
  lctrl2 : Word
  sourceA : BitVec 2
  sourceB : BitVec 2
  ictrl : Word

/-- The debug programming the development support registers hold. -/
def debugProgram (d : Dev) : DebugProgram where
  cmpa := d.cmpa
  cmpb := d.cmpb
  cmpc := d.cmpc
  cmpd := d.cmpd
  cmpe := d.cmpe
  cmpf := d.cmpf
  cmpg := d.cmpg
  cmph := d.cmph
  der := d.der
  lctrl1 := d.lctrl1
  lctrl2 := d.lctrl2
  sourceA := d.counta.cntc
  sourceB := d.countb.cntc
  ictrl := d.ictrl &&& 0xFFFFFFF7#32

theorem debugProgram_ecr {d e : Dev} (h : ∃ b, e = { d with ecr := b }) : debugProgram e = debugProgram d := by
  obtain ⟨b, rfl⟩ := h
  rfl

theorem setIfm_and_mask (b : Bool) (w : Word) : setIfm b w &&& 0xFFFFFFF7#32 = w &&& 0xFFFFFFF7#32 := by
  have hmask : ~~~ifmMask &&& 0xFFFFFFF7#32 = 0xFFFFFFF7#32 := by decide
  have hset : (if b then ifmMask else 0#32) &&& 0xFFFFFFF7#32 = 0#32 := by cases b <;> decide
  rw [setIfm, BitVec.and_or_distrib_right, hset, BitVec.or_zero, BitVec.and_assoc, hmask]

theorem debugProgram_setIfm (b : Bool) (d : Dev) :
    debugProgram { d with ictrl := setIfm b d.ictrl } = debugProgram d := by
  simp only [debugProgram, setIfm_and_mask]

/-- Counting never changes the source. -/
theorem debugProgram_counters {d : Dev} {a b : Counter} (ha : a.cntc = d.counta.cntc) (hb : b.cntc = d.countb.cntc) :
    debugProgram { d with counta := a, countb := b } = debugProgram d := by
  simp only [debugProgram, ha, hb]

theorem countRetired_cntc (counted altered : Bool) (free : BitVec 16) (c : Counter) :
    (countRetired counted altered free c).cntc = c.cntc := by
  unfold countRetired
  split <;> rfl

theorem countBroken_cntc (certain counted own : Bool) (free : BitVec 16) (c : Counter) :
    (countBroken certain counted own free c).cntc = c.cntc := by
  unfold countBroken
  split <;> rfl

/-! ### The instructions of the CPU -/

theorem programException_dev (s : State) :
    (programException s).dev = { s.dev with ecr := s.dev.ecr ||| eventMask .program } := raise_dev _ _ s

theorem clearEcrOnRead_dev (s : State) : ∃ b, (clearEcrOnRead s).dev = { s.dev with ecr := b } := by
  unfold clearEcrOnRead
  split
  · exact ⟨_, rfl⟩
  · exact ⟨s.dev.ecr, rfl⟩

theorem mfspr_dev {n : Spr} {rd : Reg} {s t : State} (h : exec (.mfspr rd n) s = .next t) :
    ∃ b, t.dev = { s.dev with ecr := b } := by
  by_cases hn : n = .dpdr
  · subst hn
    simp only [Instr.mfspr, exec, execMfsprDpdr] at h
    split at h
    · cases h; exact ⟨_, programException_dev s⟩
    · split at h <;> cases h <;> exact ⟨s.dev.ecr, by simp⟩
  · obtain ⟨v, k, he⟩ := exec_mfspr hn rd s
    rw [he] at h
    split at h <;> cases h
    · exact ⟨_, programException_dev s⟩
    · split
      · simpa using clearEcrOnRead_dev s
      · exact ⟨s.dev.ecr, by simp⟩

/-- Under debug mode enable, outside debug mode, the write of an `mtspr` is not performed (R393). -/
theorem mtspr_dev_protected {n : Spr} {rs : Reg} {s t : State} (hdme : s.mode.dme = true) (hdm : s.mode.dm = false)
    (h : exec (.mtspr rs n) s = .next t) : ∃ b, t.dev = { s.dev with ecr := b } := by
  rw [exec_mtspr] at h
  split at h
  · cases h; exact ⟨_, programException_dev s⟩
  · simp only [hdme, hdm, Bool.not_false, Bool.and_self, if_true] at h
    cases h
    exact ⟨s.dev.ecr, by simp⟩

theorem mtmsr_dev {rs : Reg} {s t : State} (h : exec (.mtmsr rs) s = .next t) :
    ∃ b, t.dev = { s.dev with ecr := b } := by
  simp only [exec, execMtmsr] at h
  split at h
  · cases h; exact ⟨_, programException_dev s⟩
  · split at h <;> cases h
    exact ⟨s.dev.ecr, by simp⟩

theorem rfi_dev {s t : State} (h : exec .rfi s = .next t) : ∃ b, t.dev = { s.dev with ecr := b } := by
  simp only [exec, execRfi] at h
  split at h <;> cases h
  · exact ⟨_, programException_dev s⟩
  · exact ⟨s.dev.ecr, returnFromException_dev s⟩

theorem moveException_dev {draw : State → State} (hdraw : ∀ u, (draw u).dev = u.dev) (s : State) :
    (moveException draw s).dev = { s.dev with ecr := s.dev.ecr ||| eventMask .program } := by
  unfold moveException
  split
  · exact (hdraw _).trans (programException_dev s)
  · exact programException_dev s

@[simp] theorem writeSave_dev (n : SaveReg) (v : Word) (s : State) : (writeSave n v s).dev = s.dev := by
  cases n <;> rfl

@[simp] theorem drawSave_dev (n : SaveReg) (s : State) : (drawSave n s).dev = s.dev := by
  cases n <;> rfl

/-- What the CPU executes for a word changes at most the ECR. -/
theorem execCpu_dev_protected {w : Word} {i : CpuInstr} {s t : State} (hdme : s.mode.dme = true)
    (hdm : s.mode.dm = false) (hi : decodeCpu w = some i) (h : execCpu i s = .next t) :
    ∃ b, t.dev = { s.dev with ecr := b } := by
  rcases execCpu_next h with ⟨j, rfl, hj⟩ | ⟨rd, n, rfl, rfl⟩ | ⟨n, rs, rfl, rfl⟩
  · rcases decodeCpu_cases hi with ⟨j', hw, hjj⟩ | ⟨_, _, hne⟩ | ⟨_, _, hne⟩
    · cases hjj
      rcases decodeWord_cases hw with ⟨n, r, rfl⟩ | ⟨n, r, rfl⟩ | ⟨r, rfl⟩ | rfl | rfl | rfl | ⟨rs, d, ra, rfl⟩
      · exact mfspr_dev hj
      · exact mtspr_dev_protected hdme hdm hj
      · exact mtmsr_dev hj
      · cases hj; exact ⟨s.dev.ecr, by simp⟩
      · exact rfi_dev hj
      · cases hj; exact ⟨s.dev.ecr, by simp⟩
      · cases hj; exact ⟨s.dev.ecr, by simp⟩
    · cases hne
    · cases hne
  · split
    · exact ⟨_, moveException_dev (draw := fun u => writeGpr rd (freeWord 0 u) u) (fun _ => rfl) s⟩
    · exact ⟨s.dev.ecr, by simp⟩
  · split
    · exact ⟨_, moveException_dev (drawSave_dev n) s⟩
    · exact ⟨s.dev.ecr, by simp⟩

/-! ### The CPU's step outside debug mode -/

theorem debugProgram_settleIfm (i : Option CpuInstr) (s t : State) :
    debugProgram (settleIfm i s t).dev = debugProgram t.dev := by
  unfold settleIfm
  split
  · exact debugProgram_setIfm _ _
  · rfl

theorem debugProgram_passBreak (s : State) : debugProgram (passBreak s).dev = debugProgram s.dev := by
  unfold passBreak
  split
  · exact debugProgram_setIfm _ _
  · rfl

theorem debugProgram_takeInstrBreak (i : Option CpuInstr) (s : State) :
    debugProgram (takeInstrBreak i s).dev = debugProgram s.dev := by
  unfold takeInstrBreak
  rw [debugProgram_ecr ⟨_, raise_dev _ _ _⟩, debugProgram_settleIfm]
  exact debugProgram_counters (countBroken_cntc _ _ _ _ _) (countBroken_cntc _ _ _ _ _)

theorem debugProgram_retire (i : CpuInstr) (s t : State) : debugProgram (retire i s t).dev = debugProgram t.dev := by
  cases h : t.cpu.flight.excepted with
  | true => rw [retire_excepted h]
  | false =>
    rw [retire_dev h]
    exact debugProgram_counters (d := t.dev) (countRetired_cntc _ _ _ _) (countRetired_cntc _ _ _ _)

theorem debugProgram_runFetched {i : Option CpuInstr} {s t : State} (hdme : s.mode.dme = true) (hdm : s.mode.dm = false)
    (hi : ∀ j, i = some j → ∃ w, decodeCpu w = some j) (h : runFetched i s = .next t) :
    debugProgram t.dev = debugProgram s.dev := by
  rcases runFetched_next h with ⟨_, rfl⟩ | ⟨_, e, _, rfl⟩ | ⟨_, _, j, u, rfl, hu, rfl⟩
  · rw [finish_dev, debugProgram_takeInstrBreak]
  · rw [finish_dev, debugProgram_settleIfm, debugProgram_ecr (raiseCpuExc_dev e _)]
    exact debugProgram_passBreak s
  · obtain ⟨w, hw⟩ := hi j rfl
    have hexec := execCpu_dev_protected (by simpa using hdme) (by simpa using hdm) hw hu
    rw [finish_dev, debugProgram_retire, debugProgram_settleIfm, debugProgram_ecr hexec, debugProgram_passBreak]

theorem raiseAsync_dev (e : Event) (s : State) : ∃ b, (raiseAsync e s).dev = { s.dev with ecr := b } := by
  unfold raiseAsync
  split
  · simpa [saveFaultAddress_dev] using raiseMachineCheck_dev true s.cpu.pc (saveFaultAddress .machineCheck s)
  · exact ⟨_, raise_dev _ _ s⟩

theorem debugProgram_runStep {s t : State} (hdme : s.mode.dme = true) (hdm : s.mode.dm = false)
    (h : runStep s = .next t) : debugProgram t.dev = debugProgram s.dev := by
  have hfetch : debugProgram (fetched s).dev = debugProgram s.dev := by rw [fetched_dev]
  have hmode : (fetched s).mode = s.mode := fetched_mode s
  rcases runStep_next h with ⟨e, es, _, rfl⟩ | ⟨_, w, _, hrun⟩ | ⟨_, _, _, hrun⟩
  · exact debugProgram_ecr (raiseAsync_dev _ _)
  · exact (debugProgram_runFetched (by rwa [hmode]) (by rwa [hmode]) (fun _ hj => ⟨w, hj⟩) hrun).trans hfetch
  · exact (debugProgram_runFetched (by rwa [hmode]) (by rwa [hmode]) (fun _ hj => by cases hj) hrun).trans hfetch

theorem debugProgram_cpuStep {s t : State} (hdme : s.mode.dme = true) (hdm : s.mode.dm = false)
    (h : cpuStep s = .next t) : debugProgram t.dev = debugProgram s.dev := by
  obtain ⟨_, _, ⟨hin, _⟩ | ⟨_, hstep⟩⟩ := cpuStep_next h
  · rw [hdm] at hin; cases hin
  · exact debugProgram_runStep hdme hdm hstep

/-! ### The step -/

/-- A transmission that is no reset command leaves the special registers alone outside debug mode. -/
theorem transmission_effect_outside {i : Instr} (hi : isTransmission i = true) (hr : ¬IsResetCommand i) :
    ∃ f e, PortOnlyOutside e ∧ ∀ s, exec i s = transmit f e s := by
  cases i with
  | instr w => exact ⟨_, _, portOnlyOutside_instr w, fun _ => rfl⟩
  | data v => exact ⟨_, _, portOnlyOutside_data v, fun _ => rfl⟩
  | tecr d => exact ⟨_, _, portOnlyOutside_tecr _ d, fun _ => rfl⟩
  | cmdHreset x => exact absurd ⟨x, .inl rfl⟩ hr
  | cmdSreset x => exact absurd ⟨x, .inr rfl⟩ hr
  | cmdStartDownload => exact ⟨_, _, portOnlyOutside_start, fun _ => rfl⟩
  | cmdEndDownload => exact ⟨_, _, portOnlyOutside_stop, fun _ => rfl⟩
  | cmdBrk n m => exact ⟨_, _, portOnlyOutside_brk n m, fun _ => rfl⟩
  | _ => first
    | (simp [isTransmission, encode] at hi; done)
    | exact ⟨_, _, portOnlyOutside_nop, fun _ => rfl⟩

theorem transmission_dev_outside {i : Instr} {s t : State} (hi : isTransmission i = true) (hr : ¬IsResetCommand i)
    (hdm : s.mode.dm = false) (h : exec i s = .next t) : t.dev = s.dev := by
  obtain ⟨f, e, he, hexec⟩ := transmission_effect_outside hi hr
  rw [hexec] at h
  obtain ⟨_, rfl⟩ := transmit_eq_next.mp h
  split
  · obtain ⟨_, hdev, _⟩ := he (exchange f s) (by simpa using hdm)
    exact hdev.trans (exchange_dev f s)
  · exact exchange_dev f s

/-- Settles O15: outside debug mode a transmission that does not reset reaches no special register, and the CPU's step
keeps the debug programming. -/
theorem protectedRegistersKeepOutsideDebugMode : Obligations.ProtectedRegistersKeepOutsideDebugMode := by
  intro s t hdme hdm hreset h
  have hkept : debugProgram t.dev = debugProgram s.dev := by
    rcases step_next h with hcpu | ⟨rest, _, hcpu⟩ | ⟨f, rest, i, hin, _, hdec, hexec⟩ | ⟨x, rfl | ⟨hin, _⟩⟩ |
      ⟨k, rest, hin, rfl⟩
    · exact debugProgram_cpuStep hdme hdm hcpu
    · exact debugProgram_cpuStep (s := { s with ext.inputs := rest }) hdme hdm hcpu
    · have hnoReset : ¬IsResetCommand i := fun hi => hreset (resetNext_of_command hin hdec hi)
      exact congrArg debugProgram
        (transmission_dev_outside (s := { s with ext.inputs := rest }) (decode_frame_transmission hdec) hnoReset hdm
          hexec)
    · rfl
    · rw [hdm] at hin; cases hin
    · exact absurd (by simp [ResetNext, hin]) hreset
  simpa [debugProgram, and_assoc] using hkept

end Sys2Proof.Machine
end

section
/-! SUPPORT and PROOFS. `mfspr` and `mtspr` (43_cpu_instructions.md R390 to R412, log 53): what a read returns, what a
write stores, what both leave unchanged, and the program exception in user mode. -/

namespace Sys2Proof.Machine

/-! ### The program exception of a privileged instruction (R392, R393, R395, R413, R414, R486, R488) -/

/-- PREE is bit 8 of DER (R36). -/
theorem program_enabled (s : State) : eventEnabled .program s = s.dev.der.getMsbD 8 :=
  and_twoPow_bne s.dev.der (k := 23) (by omega)

/-- Where the program exception goes: it is recorded, enters debug mode, or goes to its handler (R450, R460). -/
theorem programException_route (s : State) :
    if s.mode.dm then (programException s).port.pInt = true ∧ (programException s).mode = s.mode ∧
      (programException s).cpu.pc = s.cpu.pc ∧ SameExceptionRegs s (programException s)
    else if s.dev.der.getMsbD 8 && s.mode.dme then
      (programException s).mode.dm = true ∧ (programException s).mode.frz = true ∧
        (programException s).cpu.msr.pr = false ∧ (programException s).cpu.msr.ee = false ∧
        (programException s).cpu.wait = CpuWait.instr
    else
      (programException s).mode.dm = false ∧
        (programException s).cpu.pc = Config.vectorWord .program s.cpu.msr ++ 0#2 ∧
        (programException s).cpu.msr.ri = false ∧ (programException s).cpu.msr.ee = false := by
  unfold programException
  split
  · next hdm =>
    rw [raise_inDebug hdm]
    exact ⟨rfl, rfl, rfl, rfl, rfl, rfl, rfl, rfl⟩
  · next hdm =>
    have hout : s.mode.dm = false := by simpa using hdm
    rw [← program_enabled]
    split
    · next hdebug =>
      obtain ⟨he, hdme⟩ := Bool.and_eq_true_iff.mp hdebug
      rw [raise_debug hout he hdme]
      exact ⟨rfl, rfl, rfl, rfl, rfl⟩
    · next hregular =>
      rw [raise_regular hout (by simpa [Decidable.or_iff_not_imp_left] using hregular)]
      simp [hout, vectorOf, msrAfterException]

theorem sameGprs_programException (s : State) : SameGprs s (programException s) := fun q => by
  simp [programException, readGpr]

theorem sameMemory_programException (s : State) : SameMemory s (programException s) := fun a => by simp

theorem exec_mfspr_user (n : Spr) (rd : Reg) {s : State} (hp : s.cpu.msr.pr = true) :
    exec (.mfspr rd n) s = .next (programException s) := by
  by_cases hn : n = .dpdr
  · subst hn
    exact if_pos hp
  · obtain ⟨v, k, he⟩ := exec_mfspr hn rd s
    rw [he, if_pos hp]

theorem exec_mtspr_user (n : Spr) (rs : Reg) {s : State} (hp : s.cpu.msr.pr = true) :
    exec (.mtspr rs n) s = .next (programException s) := by
  rw [exec_mtspr, if_pos hp]

/-- Settles O19: each of the four is the program exception alone. -/
theorem userModeAccessIsProgramException : Obligations.UserModeAccessIsProgramException := by
  intro n r s i hi hp
  have hexec : exec i s = .next (programException s) := by
    rcases hi with rfl | rfl | rfl | rfl
    · exact exec_mfspr_user n r hp
    · exact exec_mtspr_user n r hp
    · exact if_pos hp
    · exact if_pos hp
  exact ⟨_, hexec, programException_dev s, sameGprs_programException s, sameMemory_programException s,
    programException_route s⟩

/-! ### What a read returns (R396 to R411) -/

/-- Free reserved bits leave the other bits as they are stored. -/
theorem withReserved_and_not (mask v free : Word) : withReserved mask v free &&& ~~~mask = v &&& ~~~mask := by
  simpa using withReserved_defined (~~~mask) v free

theorem tecrLctrl2Bits_eq (t : Tecr) :
    tecrLctrl2Bits t = 0#28 ++ BitVec.ofBool t.lw0 ++ BitVec.ofBool t.lw1 ++ 0#2 := by
  unfold tecrLctrl2Bits
  generalize t.lw0 = b0, t.lw1 = b1
  revert b0 b1
  decide

theorem tecrIctrlBits_eq (t : Tecr) :
    tecrIctrlBits t = 0#24 ++ BitVec.ofBool t.iw0 ++ BitVec.ofBool t.iw1 ++ BitVec.ofBool t.iw2 ++
      BitVec.ofBool t.iw3 ++ 0#4 := by
  unfold tecrIctrlBits
  generalize t.iw0 = b0, t.iw1 = b1, t.iw2 = b2, t.iw3 = b3
  revert b0 b1 b2 b3
  decide

/-- When CNTV reads exactly (R402, R33). -/
theorem counterReadable_iff (c : Counter) (synced iwp : Bool) (s : State) :
    counterReadable c synced iwp s = true ↔ CounterExact c synced iwp s := by
  have hrec : (s.dev.lctrl2.getMsbD 20 = true ∨ s.cpu.msr.ri = true) ↔ recognised s = true := by
    simp [recognised, lctrl2Brknomsk]
  rw [counterReadable, CounterExact, hrec]
  cases iwp <;> cases recognised s <;> cases s.mode.dm <;> simp [or_assoc]

/-- The fields of a counter's word under a mask of its two fields. -/
theorem counterFields_and (v m : BitVec 16) (c k : BitVec 2) :
    (v ++ 0#14 ++ c) &&& (m ++ 0#14 ++ k) = (v &&& m) ++ 0#14 ++ (c &&& k) := by
  rw [BitVec.and_append, BitVec.and_append, BitVec.and_self]

/-- CNTC always reads exactly. -/
theorem counterWord_and_three (c : Counter) (synced iwp : Bool) (s : State) :
    counterWord c synced iwp s &&& 3#32 = (c.cntv ++ 0#14 ++ c.cntc) &&& 3#32 := by
  have hlow : ∀ v : BitVec 16, (v ++ 0#14 ++ c.cntc) &&& 3#32 = 0#16 ++ 0#14 ++ (c.cntc &&& 3#2) := fun v =>
    (counterFields_and v 0#16 c.cntc 3#2).trans (by rw [BitVec.and_zero])
  have hdefined : 3#32 = ~~~counterReserved &&& 3#32 := by decide
  rw [counterWord, hdefined, ← BitVec.and_assoc, ← BitVec.and_assoc, withReserved_and_not, BitVec.and_assoc,
    BitVec.and_assoc, ← hdefined, hlow, hlow]

/-- A counter that reads exactly reads whole. -/
theorem counterWord_exact {c : Counter} {synced iwp : Bool} {s : State} (h : CounterExact c synced iwp s) :
    counterWord c synced iwp s &&& ~~~counterReserved = (c.cntv ++ 0#14 ++ c.cntc) &&& ~~~counterReserved := by
  rw [counterWord, withReserved_and_not, if_pos (counterReadable_iff c synced iwp s |>.mpr h)]

/-- What `mfspr` of a stored register puts into rD: the register in every bit that is not reserved, of a counter whose
CNTV does not read exactly the CNTC. -/
structure ReadsAs (n : Spr) (s : State) (v : Word) : Prop where
  defined : (n = .counta → CounterExact s.dev.counta s.syncedA s.cpu.flight.iwp0 s) →
    (n = .countb → CounterExact s.dev.countb s.syncedB s.cpu.flight.iwp1 s) →
    v &&& ~~~sprReserved n = sprStored n s &&& ~~~sprReserved n
  source : n = .counta ∨ n = .countb → v &&& 3#32 = sprStored n s &&& 3#32

theorem ReadsAs.stored {n : Spr} {s : State} (ha : n ≠ .counta) (hb : n ≠ .countb) : ReadsAs n s (sprStored n s) :=
  ⟨fun _ _ => rfl, fun h => by simp [ha, hb] at h⟩

theorem ReadsAs.withReserved {n : Spr} {s : State} {mask : Word} (ha : n ≠ .counta) (hb : n ≠ .countb)
    (hmask : sprReserved n = mask) (free : Word) : ReadsAs n s (withReserved mask (sprStored n s) free) :=
  ⟨fun _ _ => by rw [hmask, withReserved_and_not], fun h => by simp [ha, hb] at h⟩

/-- A performed `mfspr` of a stored register. -/
theorem exec_mfspr_reads {n : Spr} (hn : n ≠ .dpdr) (rd : Reg) {s : State} (hp : s.cpu.msr.pr = false) :
    ∃ v k, exec (.mfspr rd n) s =
        .next (completeSequential (writeGpr rd v (spend k (if n = .ecr then clearEcrOnRead s else s)))) ∧
      ReadsAs n s v := by
  cases n with
  | dpdr => exact absurd rfl hn
  | cmpa => exact ⟨_, 1, if_neg (by simp [hp]), .withReserved (by decide) (by decide) rfl _⟩
  | cmpb => exact ⟨_, 1, if_neg (by simp [hp]), .withReserved (by decide) (by decide) rfl _⟩
  | cmpc => exact ⟨_, 1, if_neg (by simp [hp]), .withReserved (by decide) (by decide) rfl _⟩
  | cmpd => exact ⟨_, 1, if_neg (by simp [hp]), .withReserved (by decide) (by decide) rfl _⟩
  | lctrl1 => exact ⟨_, 1, if_neg (by simp [hp]), .withReserved (by decide) (by decide) rfl _⟩
  | der => exact ⟨_, 1, if_neg (by simp [hp]), .withReserved (by decide) (by decide) (by decide) _⟩
  | ecr => exact ⟨_, 1, if_neg (by simp [hp]), .withReserved (by decide) (by decide) (by decide) _⟩
  | lctrl2 =>
    refine ⟨_, 1, if_neg (by simp [hp]), ?_⟩
    rw [readReserved, tecrLctrl2Bits_eq]
    exact .withReserved (by decide) (by decide) rfl _
  | ictrl =>
    refine ⟨_, 0, if_neg (by simp [hp]), ?_⟩
    simp only [tecrIctrlBits_eq]
    exact .stored (by decide) (by decide)
  | counta =>
    exact ⟨_, 2, if_neg (by simp [hp]), fun ha _ => counterWord_exact (ha rfl), fun _ => counterWord_and_three _ _ _ s⟩
  | countb =>
    exact ⟨_, 2, if_neg (by simp [hp]), fun _ hb => counterWord_exact (hb rfl), fun _ => counterWord_and_three _ _ _ s⟩
  | _ => exact ⟨_, 0, if_neg (by simp [hp]), .stored (by decide) (by decide)⟩

/-- What the read itself does: it may clear the ECR, and nothing else (R392, R400). -/
theorem readState_eq (n : Spr) (s : State) :
    (if n = .ecr then clearEcrOnRead s else s) =
      { s with dev := if n = .ecr ∧ (s.mode.dme = false ∨ s.mode.dm = true) then { s.dev with ecr := 0#32 }
        else s.dev } := by
  by_cases hn : n = .ecr
  · simp only [hn, if_true, true_and, clearEcrOnRead]
    cases s.mode.dme <;> cases s.mode.dm <;> rfl
  · simp [hn]

/-- Settles O16: the read, with the frame of a write of rD. -/
theorem mfsprReads : Obligations.MfsprReads := by
  intro n rd s hn hp
  obtain ⟨v, k, hexec, hreads⟩ := exec_mfspr_reads hn rd hp
  rw [readState_eq] at hexec
  refine ⟨_, hexec, ?_, ?_, ?_, ?_, fun q hq => ?_, ?_, ?_, ?_, fun a => ?_, completeSequential_events _⟩
  · rw [readGpr_completeSequential, readGpr_writeGpr_same]
    exact hreads.defined
  · rw [readGpr_completeSequential, readGpr_writeGpr_same]
    exact hreads.source
  · simp
  · simp
  · rw [readGpr_completeSequential, readGpr_writeGpr_other hq, readGpr_spend]
    rfl
  · simp [SameExceptionRegs]
  · simp [SameModes]
  · simp
  · simp

/-! ### What a write does (R393, R396 to R412, R422) -/

/-- The trace report of an `mtspr`: sequential, or, of those that may be marked, either way. -/
theorem mtsprComplete_reported (n : Spr) {s u : State} (htrace : u.trace = s.trace) (hmode : u.mode = s.mode) :
    (sprMayBeMarked n = false → Reported 0b001#3 s (mtsprComplete n u)) ∧
      (sprMayBeMarked n = true → Reported 0b001#3 s (mtsprComplete n u) ∨ Reported 0b101#3 s (mtsprComplete n u)) := by
  simp only [Reported, mtsprComplete, ← htrace, ← hmode]
  refine ⟨fun hn => ?_, fun hn => ?_⟩
  · rw [hn]
    exact completeSequential_events u
  · rw [hn]
    exact (completeMaybeMarked_events u).symm

/-- Completing an `mtspr` changes the pc and the trace alone; what it wrote, `u`, is not of the CPU. -/
theorem mtsprComplete_frame (n : Spr) {s u : State} (hcpu : u.cpu = s.cpu) (hmode : u.mode = s.mode)
    (hext : u.ext = s.ext) (hmem : u.mem = s.mem) :
    (mtsprComplete n u).cpu.pc = s.cpu.pc + 4#32 ∧ SameGprs s (mtsprComplete n u) ∧
      SameExceptionRegs s (mtsprComplete n u) ∧ SameModes s (mtsprComplete n u) ∧ SameMemory s (mtsprComplete n u) := by
  simp [SameGprs, readGpr, SameExceptionRegs, SameModes, SameMemory, mtsprComplete_cpu, hcpu, hmode, hext, hmem]

theorem writtenState_port (n : Spr) (v : Word) {s : State} (h : n ≠ .dpdr ∨ s.mode.dm = false) :
    (writtenState n v s).port = s.port := by
  cases n with
  | dpdr => simp [writtenState, writeDpdr, h.resolve_left (fun hne => hne rfl)]
  | _ => rfl

/-- In debug mode a write of DPDR loads the data bits of the shift register and sets P_VALID (R353). -/
theorem writtenState_dpdr_port (v : Word) {s : State} (h : s.mode.dm = true) :
    (writtenState .dpdr v s).port = { s.port with shift := s.port.shift.extractLsb' 32 3 ++ v, pValid := true } := by
  simp [writtenState, writeDpdr, h]

theorem mtspr_written (n : Spr) (rs : Reg) (s : State) (hp : s.cpu.msr.pr = false)
    (h : s.mode.dme = false ∨ s.mode.dm = true) :
    exec (.mtspr rs n) s = .next (mtsprComplete n (writtenState n (readGpr rs s) s)) := by
  rw [exec_mtspr, if_neg (by simp [hp]), if_neg (by rcases h with h | h <;> simp [h])]

theorem mtspr_protected (n : Spr) (rs : Reg) (s : State) (hp : s.cpu.msr.pr = false) (hdme : s.mode.dme = true)
    (hdm : s.mode.dm = false) : exec (.mtspr rs n) s = .next (mtsprComplete n s) := by
  rw [exec_mtspr, if_neg (by simp [hp]), if_pos (by simp [hdme, hdm])]

/-- Settles O18: the write where it is performed, and the completion in both cases. -/
theorem mtsprWritesOrIsNotPerformed : Obligations.MtsprWritesOrIsNotPerformed := by
  constructor
  · intro n rs s hp hperformed
    obtain ⟨hpc, hgprs, hregs, hmodes, hmem⟩ := mtsprComplete_frame n (writtenState_cpu n (readGpr rs s) s)
      (writtenState_mode _ _ _) (writtenState_ext _ _ _) (writtenState_mem _ _ _)
    obtain ⟨hplain, hmarked⟩ := mtsprComplete_reported n (writtenState_trace n (readGpr rs s) s)
      (writtenState_mode _ _ _)
    refine ⟨_, mtspr_written n rs s hp hperformed, by simp, hpc, hgprs, hregs, hmodes, hmem, fun h => ?_,
      fun hn hdm => ?_, hplain, hmarked⟩
    · rw [mtsprComplete_port, writtenState_port n _ h]
    · subst hn
      rw [SamePortControl, mtsprComplete_port, writtenState_dpdr_port _ hdm]
      exact ⟨BitVec.extractLsb'_append_eq_right, rfl, rfl, rfl, ⟨rfl, rfl, rfl, rfl⟩, rfl⟩
  · intro n rs s hp hdme hdm
    obtain ⟨hpc, hgprs, hregs, hmodes, hmem⟩ := mtsprComplete_frame n (s := s) rfl rfl rfl rfl
    exact ⟨_, mtspr_protected n rs s hp hdme hdm, mtsprComplete_dev n s, mtsprComplete_port n s, hpc, hgprs, hregs,
      hmodes, hmem⟩

/-! ### The moves of the registers exceptions save into (R390, log 53) -/

@[simp] theorem SaveReg.ofNumber_number (n : SaveReg) : SaveReg.ofNumber n.number = some n := by cases n <;> rfl

/-- The SPR number of a register exceptions save into is not that of a row of the table. -/
theorem sprOfNumber_saveReg (n : SaveReg) : Spr.ofNumber n.number = none := by cases n <;> rfl

theorem decodeCpu_mfsprWord (n : SaveReg) (r : Reg) : decodeCpu (mfsprWord n.number r) = some (.mfsprSave r n) := by
  have hnumber : n.number.extractLsb' 5 5 ++ n.number.extractLsb' 0 5 = n.number :=
    BitVec.extractLsb'_append_extractLsb'
  rw [decodeCpu, mfsprWord_eq, decodeWord_wordOfFields]
  simp [decodeOp31, hnumber, sprOfNumber_saveReg, decodeSave, -BitVec.extractLsb'_toNat]

theorem decodeCpu_mtsprWord (n : SaveReg) (r : Reg) : decodeCpu (mtsprWord n.number r) = some (.mtsprSave n r) := by
  have hnumber : n.number.extractLsb' 5 5 ++ n.number.extractLsb' 0 5 = n.number :=
    BitVec.extractLsb'_append_extractLsb'
  rw [decodeCpu, mtsprWord_eq, decodeWord_wordOfFields]
  simp [decodeOp31, hnumber, sprOfNumber_saveReg, decodeSave, -BitVec.extractLsb'_toNat]

/-- A performed `mfspr` of a register exceptions save into. -/
theorem mfsprSave_performed (r : Reg) (n : SaveReg) {s : State} (hp : s.cpu.msr.pr = false) :
    execCpu (.mfsprSave r n) s = .next (completeSequential (writeGpr r (readSave n s) s)) :=
  if_neg (by simp [hp])

/-- A performed `mtspr` of a register exceptions save into. -/
theorem mtsprSave_performed (n : SaveReg) (r : Reg) {s : State} (hp : s.cpu.msr.pr = false) :
    execCpu (.mtsprSave n r) s = .next (completeSequential (writeSave n (readGpr r s) s)) :=
  if_neg (by simp [hp])

/-- What a write of a register exceptions save into leaves in the four. -/
theorem writeSave_regs (n : SaveReg) (v : Word) (s : State) :
    (writeSave n v s).cpu.srr0 = (if n = .srr0 then v else s.cpu.srr0) ∧
      (writeSave n v s).cpu.srr1 = (if n = .srr1 then v else s.cpu.srr1) ∧
      (writeSave n v s).cpu.dar = (if n = .dar then v else s.cpu.dar) ∧
      (writeSave n v s).cpu.dsisr = (if n = .dsisr then v else s.cpu.dsisr) := by
  cases n <;> exact ⟨rfl, rfl, rfl, rfl⟩

theorem mfsprSave_moves (r : Reg) (n : SaveReg) (s : State) (hp : s.cpu.msr.pr = false) :
    ∃ t, execCpu (.mfsprSave r n) s = .next t ∧ readGpr r t = readSave n s ∧ SameGprsBut r s t ∧
      SameExceptionRegs s t ∧ t.dev = s.dev ∧ t.port = s.port ∧ SameModes s t ∧ SameMemory s t ∧
      t.cpu.pc = s.cpu.pc + 4#32 ∧ Reported 0b001#3 s t := by
  refine ⟨_, mfsprSave_performed r n hp, ?_, fun q hq => ?_, by simp [SameExceptionRegs], by simp, by simp,
    by simp [SameModes], fun a => by simp, by simp, completeSequential_events _⟩
  · rw [readGpr_completeSequential, readGpr_writeGpr_same]
  · rw [readGpr_completeSequential, readGpr_writeGpr_other hq]

theorem mtsprSave_moves (r : Reg) (n : SaveReg) (s : State) (hp : s.cpu.msr.pr = false) :
    ∃ t, execCpu (.mtsprSave n r) s = .next t ∧
      t.cpu.srr0 = (if n = .srr0 then readGpr r s else s.cpu.srr0) ∧
      t.cpu.srr1 = (if n = .srr1 then readGpr r s else s.cpu.srr1) ∧
      t.cpu.dar = (if n = .dar then readGpr r s else s.cpu.dar) ∧
      t.cpu.dsisr = (if n = .dsisr then readGpr r s else s.cpu.dsisr) ∧
      t.cpu.msr = s.cpu.msr ∧ SameGprs s t ∧ t.dev = s.dev ∧ t.port = s.port ∧ SameModes s t ∧ SameMemory s t ∧
      t.cpu.pc = s.cpu.pc + 4#32 ∧ Reported 0b001#3 s t := by
  obtain ⟨hsrr0, hsrr1, hdar, hdsisr⟩ := writeSave_regs n (readGpr r s) s
  obtain ⟨c, hw, hgpr, hpc, hmsr, hwait, hdpir, hstop, _⟩ := writeSave_frame n (readGpr r s) s
  refine ⟨_, mtsprSave_performed n r hp, by simpa using hsrr0, by simpa using hsrr1, by simpa using hdar,
    by simpa using hdsisr, ?_⟩
  rw [hw]
  simp [SameGprs, readGpr, hgpr, hpc, hmsr, SameModes, hwait, hdpir, hstop, SameMemory, Reported,
    completeSequential_events]

/-- `draw` draws the destination of a move: a general register, DAR or DSISR. -/
structure DrawsDestination (draw : State → State) : Prop where
  dev : ∀ u, (draw u).dev = u.dev
  port : ∀ u, (draw u).port = u.port
  mode : ∀ u, (draw u).mode = u.mode
  mem : ∀ u, (draw u).mem = u.mem
  pc : ∀ u, (draw u).cpu.pc = u.cpu.pc
  msr : ∀ u, (draw u).cpu.msr = u.cpu.msr
  srr0 : ∀ u, (draw u).cpu.srr0 = u.cpu.srr0
  srr1 : ∀ u, (draw u).cpu.srr1 = u.cpu.srr1

theorem drawsDestination_writeGpr (r : Reg) : DrawsDestination (fun u => writeGpr r (freeWord 0 u) u) := by
  constructor <;> intro u <;> rfl

theorem drawsDestination_drawSave (n : SaveReg) : DrawsDestination (drawSave n) := by
  constructor <;> intro u <;> cases n <;> rfl

/-- Where the program exception of a move goes: as that of every privileged instruction. -/
theorem DrawsDestination.route {draw : State → State} (hd : DrawsDestination draw) (s : State) :
    if s.mode.dm then (moveException draw s).port.pInt = true ∧ (moveException draw s).mode = s.mode ∧
      (moveException draw s).cpu.pc = s.cpu.pc ∧ (moveException draw s).cpu.msr = s.cpu.msr ∧
      (moveException draw s).cpu.srr0 = s.cpu.srr0 ∧ (moveException draw s).cpu.srr1 = s.cpu.srr1
    else if s.dev.der.getMsbD 8 && s.mode.dme then
      (moveException draw s).mode.dm = true ∧ (moveException draw s).mode.frz = true ∧
        (moveException draw s).cpu.msr.pr = false ∧ (moveException draw s).cpu.msr.ee = false ∧
        (moveException draw s).cpu.wait = CpuWait.instr
    else
      (moveException draw s).mode.dm = false ∧
        (moveException draw s).cpu.pc = Config.vectorWord .program s.cpu.msr ++ 0#2 ∧
        (moveException draw s).cpu.msr.ri = false ∧ (moveException draw s).cpu.msr.ee = false := by
  have hroute := programException_route s
  cases hdm : s.mode.dm with
  | true =>
    simp only [hdm, if_true] at hroute
    obtain ⟨hint, hmode, hpc, hmsr, hsrr0, hsrr1, _⟩ := hroute
    simp [moveException, hdm, hd.port, hd.mode, hd.pc, hd.msr, hd.srr0, hd.srr1, hint, hmode, hpc, hmsr, hsrr0, hsrr1]
  | false =>
    rw [moveException_outside hdm]
    simpa [hdm] using hroute

/-- What the program exception of a move leaves of the possible destinations: outside debug mode all, in debug mode all
but its own. -/
theorem moveException_keeps {α : Type} {draw : State → State} {field : State → α} {s : State}
    (hraise : field (programException s) = field s) (hspend : ∀ u, field (spend 1 u) = field u)
    (hdraw : s.mode.dm = true → ∀ u, field (draw u) = field u) : field (moveException draw s) = field s := by
  unfold moveException
  split
  · next hdm => rw [hspend, hdraw hdm, hraise]
  · exact hraise

theorem mfsprSave_user (r : Reg) (n : SaveReg) (s : State) (hp : s.cpu.msr.pr = true) :
    execCpu (.mfsprSave r n) s = .next (moveException (fun u => writeGpr r (freeWord 0 u) u) s) := if_pos hp

theorem mtsprSave_user (r : Reg) (n : SaveReg) (s : State) (hp : s.cpu.msr.pr = true) :
    execCpu (.mtsprSave n r) s = .next (moveException (drawSave n) s) := if_pos hp

/-- Settles O22: the words decode by their fields; the moves by their own lemmas. -/
theorem saveRegisterMoves : Obligations.SaveRegisterMoves := by
  intro r n number s hnumber
  have hnumber : number = n.number := by rw [hnumber]; cases n <;> rfl
  subst hnumber
  refine ⟨decodeCpu_mfsprWord n r, decodeCpu_mtsprWord n r, fun hp => ⟨?_, mtsprSave_moves r n s hp⟩, ?_⟩
  · have hmove := mfsprSave_moves r n s hp
    cases n <;> exact hmove
  · rintro hp i toGpr rfl
    have hgprs := sameGprs_programException s
    have hdar : (programException s).cpu.dar = s.cpu.dar := raise_dar _ _ s
    have hdsisr : (programException s).cpu.dsisr = s.cpu.dsisr := raise_dsisr _ _ s
    cases toGpr with
    | true =>
      have hd := drawsDestination_writeGpr r
      refine ⟨_, mfsprSave_user r n s hp, moveException_dev hd.dev s, fun a => by rw [moveException_mem hd.mem],
        fun q hq => ?_, fun _ => ?_, fun _ => ?_, hd.route s⟩
      · refine moveException_keeps (field := readGpr q) (hgprs q) (readGpr_spend q 1) fun hdm u => ?_
        exact readGpr_writeGpr_other (by simpa [hdm] using hq) _ u
      · exact moveException_keeps (field := fun u => u.cpu.dar) hdar (fun _ => rfl) fun _ _ => rfl
      · exact moveException_keeps (field := fun u => u.cpu.dsisr) hdsisr (fun _ => rfl) fun _ _ => rfl
    | false =>
      have hd := drawsDestination_drawSave n
      refine ⟨_, mtsprSave_user r n s hp, moveException_dev hd.dev s, fun a => by rw [moveException_mem hd.mem],
        fun q _ => ?_, fun hn => ?_, fun hn => ?_, hd.route s⟩
      · exact moveException_keeps (field := readGpr q) (hgprs q) (readGpr_spend q 1) fun _ u => by cases n <;> rfl
      · refine moveException_keeps (field := fun u => u.cpu.dar) hdar (fun _ => rfl) fun hdm u => ?_
        cases n with
        | dar => simp [hdm] at hn
        | _ => rfl
      · refine moveException_keeps (field := fun u => u.cpu.dsisr) hdsisr (fun _ => rfl) fun hdm u => ?_
        cases n with
        | dsisr => simp [hdm] at hn
        | _ => rfl

end Sys2Proof.Machine
end

section
/-! SUPPORT and PROOFS. `rfi`, `mtmsr`, `isync`, `sync` and `stwu` (43_cpu_instructions.md R413 to R417). -/

namespace Sys2Proof.Machine

/-! ### `rfi` (R413, R470 to R472, R482) -/

/-- What a return from an exception that is not entered again at once leaves: the context from SRR0 and SRR1, debug mode
off, freeze while an enabled cause is left, one report, and nothing else changed. -/
structure Returned (s t : State) : Prop where
  pc : t.cpu.pc = s.cpu.srr0.extractLsb' 2 30 ++ 0#2
  msr : t.cpu.msr = msrFromSrr1 s.cpu.srr1 s.cpu.msr
  mode : t.mode = { s.mode with dm := false, frz := s.mode.frz && causePending s }
  mark : t.trace.mark.ptc = true
  events : t.trace.events = s.trace.events ++
    [.typeCode (if s.mode.dm && s.trace.vsyncChanged then 0b011#3 else 0b101#3)]
  left : s.mode.dm = true → t.cpu.wait = CpuWait.none ∧ t.trace.vsyncChanged = false
  saved : t.cpu.srr0 = s.cpu.srr0 ∧ t.cpu.srr1 = s.cpu.srr1 ∧ t.cpu.dar = s.cpu.dar ∧ t.cpu.dsisr = s.cpu.dsisr
  rest : t.dev = s.dev ∧ t.port = s.port ∧ t.ext = s.ext ∧ t.cpu.gpr = s.cpu.gpr ∧ t.mem = s.mem

theorem returned_outside {s : State} (hdm : s.mode.dm = false) :
    Returned s (markNext FetchMark.indirect (reportType 0b101#3 (restoreContext s))) := by
  have hout : (restoreContext s).mode.dm = false := hdm
  refine ⟨by simp, by simp, by simp [← hdm], ?_, ?_, by simp [hdm], by simp, by simp⟩
  · rw [markNext_mark _ _ (by simpa using hout)]
    simp [FetchMark.join, FetchMark.indirect]
  · rw [markNext_events, reportType_events, hout]
    simp [hdm]

theorem returned_leaveDebug {s : State} (hdm : s.mode.dm = true) : Returned s (leaveDebug (restoreContext s)) := by
  refine ⟨by simp, by simp, by simp, ?_, ?_, fun _ => ⟨by simp, ?_⟩, by simp, by simp⟩
  · rw [leaveDebug, markNext_mark _ _ (by simp)]
    simp [FetchMark.join]
  · rw [leaveDebug, markNext_events, reportType_events]
    cases hv : s.trace.vsyncChanged <;> simp [hdm, hv]
  · rw [leaveDebug, markNext_vsyncChanged, reportType_vsyncChanged]

/-- Outside debug mode, and in debug mode with no enabled cause left or debug mode disabled. -/
theorem returned_returnFromException {s : State}
    (h : s.mode.dm = false ∨ s.dev.ecr &&& s.dev.der = 0#32 ∨ s.mode.dme = false) :
    Returned s (returnFromException s) := by
  unfold returnFromException
  split
  · next hdm =>
    have hnone : (causePending s && s.mode.dme) = false := by
      rcases h with h | h | h
      · rw [hdm] at h; cases h
      · simp [causePending, h]
      · simp [h]
    rw [if_neg (by simp [hnone])]
    exact returned_leaveDebug hdm
  · next hdm => exact returned_outside (by simpa using hdm)

/-- In debug mode an enabled cause that is left enters debug mode again at once (R471). -/
theorem returnFromException_reenters {s : State} (hdm : s.mode.dm = true) (hdme : s.mode.dme = true)
    (h : s.dev.ecr &&& s.dev.der ≠ 0#32) :
    returnFromException s =
      enterDebug none (s.cpu.srr0.extractLsb' 2 30 ++ 0#2) (leaveDebug (restoreContext s)) := by
  simp [returnFromException, hdm, hdme, causePending, h]

theorem exec_rfi {s : State} (hp : s.cpu.msr.pr = false) : exec .rfi s = .next (returnFromException s) :=
  if_neg (by simp [hp])

/-- Settles O20: the return, and the immediate re-entry. -/
theorem rfiReturnsOrReentersDebugMode : Obligations.RfiReturnsOrReentersDebugMode := by
  constructor
  · intro s hp hleave
    obtain ⟨hpc, hmsr, hmode, hmark, hevents, hleft, ⟨hsrr0, hsrr1, hdar, hdsisr⟩, hdev, hport, hext, hgpr, hmem⟩ :=
      returned_returnFromException hleave
    have hbit : ∀ k : Fin 32, (ofSrr1 s.cpu.srr1).getMsbD k = srr1Bit s.cpu.srr1 k := ofSrr1_getMsbD _
    refine ⟨_, exec_rfi hp, hpc, ?_, ?_, ?_, ?_, ?_, ?_, hmode, hmark, hevents, hleft, hsrr0, hsrr1, hdar, hdsisr, hdev,
      hport, hext, fun q => readGpr_congr hgpr q, fun a => by rw [hmem]⟩ <;> rw [hmsr]
    · exact hbit 16
    · exact hbit 17
    · exact hbit 19
    · exact hbit 21
    · exact hbit 22
    · exact hbit 30
  · intro s hp hdm hdme hcause
    refine ⟨_, exec_rfi hp, ?_⟩
    rw [returnFromException_reenters hdm hdme hcause]
    simp [SameGprs, SameMemory, msrAfterDebugEntry]

/-! ### `mtmsr`, `isync` and `sync` (R414 to R416) -/

/-- An instruction that acts like an indirect branch marks the next fetch outside debug mode (R190). -/
theorem completeMarked_mark {s : State} (hdm : s.mode.dm = false) : (completeMarked s).trace.mark.ptc = true := by
  rw [completeMarked, markNext_mark _ _ (by simpa using hdm)]
  simp [FetchMark.join, FetchMark.indirect]

theorem mtmsr_copies (rs : Reg) (s : State) (hp : s.cpu.msr.pr = false)
    (hee : s.mode.dm = false ∨ (readGpr rs s).getMsbD 16 = false) :
    exec (.mtmsr rs) s = .next (completeMarked { s with cpu.msr := msrOfWord (readGpr rs s) }) := by
  have hallowed : (s.mode.dm && (msrOfWord (readGpr rs s)).ee) = false := by
    rcases hee with h | h <;> simp [h, msrOfWord]
  simp only [exec, execMtmsr, hp, hallowed, Bool.false_eq_true, if_false]

theorem mtmsr_refused (rs : Reg) (s : State) (hp : s.cpu.msr.pr = false) (hdm : s.mode.dm = true)
    (hee : (readGpr rs s).getMsbD 16 = true) : exec (.mtmsr rs) s = .refused .eeInDebugMode := by
  simp [exec, execMtmsr, hp, hdm, msrOfWord, hee]

/-- A `sync` leaves both counters synchronized (R416, log 22). -/
theorem exec_sync (s : State) :
    exec .sync s = .next (completeSequential { s with syncedA := true, syncedB := true }) := rfl

/-- The word of a counter has no reserved bits. -/
theorem counterFields_defined (c : Counter) :
    (c.cntv ++ 0#14 ++ c.cntc) &&& 0xFFFF0003#32 = c.cntv ++ 0#14 ++ c.cntc := by
  have hfields := counterFields_and c.cntv (BitVec.allOnes 16) c.cntc (BitVec.allOnes 2)
  rwa [BitVec.and_allOnes, BitVec.and_allOnes] at hfields

/-- A synchronized counter that does not count the reading instruction reads exactly. -/
theorem counterExact_of_synced {c : Counter} {iwp : Bool} (h : c.cntc ≠ 0b01#2 ∨ iwp = false) (s : State) :
    CounterExact c true iwp s := by
  refine ⟨.inr (.inr rfl), fun ⟨hsource, hiwp, _⟩ => ?_⟩
  rcases h with h | h
  · exact h hsource
  · rw [h] at hiwp; cases hiwp

/-- An `mfspr` of a counter that reads exactly returns CNTV and CNTC. -/
theorem mfspr_counter_exact {n : Spr} {s : State} {c : Counter} (hp : s.cpu.msr.pr = false)
    (hn : n = .counta ∧ c = s.dev.counta ∧ CounterExact c s.syncedA s.cpu.flight.iwp0 s ∨
      n = .countb ∧ c = s.dev.countb ∧ CounterExact c s.syncedB s.cpu.flight.iwp1 s) (rd : Reg) :
    ∃ u, exec (.mfspr rd n) s = .next u ∧ readGpr rd u &&& 0xFFFF0003#32 = c.cntv ++ 0#14 ++ c.cntc := by
  have hdpdr : n ≠ .dpdr := by rcases hn with ⟨rfl, _⟩ | ⟨rfl, _⟩ <;> decide
  obtain ⟨v, k, hexec, hdefined, _⟩ := exec_mfspr_reads hdpdr rd hp
  refine ⟨_, hexec, ?_⟩
  rw [readGpr_completeSequential, readGpr_writeGpr_same]
  rcases hn with ⟨rfl, rfl, hexact⟩ | ⟨rfl, rfl, hexact⟩
  · exact (hdefined (fun _ => hexact) (fun h => by cases h)).trans (counterFields_defined s.dev.counta)
  · exact (hdefined (fun h => by cases h) (fun _ => hexact)).trans (counterFields_defined s.dev.countb)

/-- Settles O21: each of the three by its completion, and the counters after a `sync` by what `mfspr` reads. -/
theorem mtmsrIsyncAndSync : Obligations.MtmsrIsyncAndSync := by
  refine ⟨fun rs s hp hee => ⟨_, mtmsr_copies rs s hp hee, ?_⟩, mtmsr_refused,
    fun s => ⟨⟨_, rfl, ?isync⟩, ⟨_, exec_sync s, ?sync⟩⟩⟩
  · rw [completeMarked_msr]
    exact ⟨rfl, rfl, rfl, rfl, rfl, rfl, rfl, by simp, by simp, by simp, by simp, by simp, by simp, by simp,
      by simp [SameModes], fun q => by simp [readGpr], fun a => by simp, completeMarked_events _,
      fun hdm => completeMarked_mark hdm⟩
  case isync =>
    exact ⟨by simp, fun q => by simp, by simp, by simp, by simp [SameExceptionRegs], by simp [SameModes],
      fun a => by simp, completeMarked_events s, completeMarked_mark⟩
  case sync =>
    refine ⟨by simp, fun q => by simp [readGpr], by simp, by simp, by simp [SameExceptionRegs], by simp [SameModes],
      fun a => by simp, completeSequential_events _, by simp, by simp,
      fun hp rd => ⟨fun hcount => ?_, fun hcount => ?_⟩⟩
    · refine mfspr_counter_exact (n := .counta) (by simpa using hp) (.inl ⟨rfl, by simp, ?_⟩) rd
      simpa using counterExact_of_synced hcount _
    · refine mfspr_counter_exact (n := .countb) (by simpa using hp) (.inr ⟨rfl, by simp, ?_⟩) rd
      simpa using counterExact_of_synced hcount _

/-! ### `stwu` (R417, R103, R106) -/

/-- The state after a `stwu`. -/
def stwuDone (rs : Reg) (a : Word) (ra : Reg) (s : State) : State :=
  completeSequential (writeGpr ra a (storeWord a (readGpr rs s) s))

theorem exec_stwu (rs : Reg) (d : Int) (ra : Reg) (s : State) :
    exec (.stwu rs d ra) s = .next (stwuDone rs (readGpr ra s + BitVec.ofInt 32 d) ra s) := rfl

theorem stwuDone_mem (rs : Reg) (a : Word) (ra : Reg) (s : State) :
    (stwuDone rs a ra s).mem = memWriteWord a (readGpr rs s) s.mem := by
  simp [stwuDone]

/-- Byte `k` of the word is the byte at `a + k` (R103). -/
theorem memRead_stwuDone (rs : Reg) (a : Word) (ra : Reg) (s : State) {k : Nat} (hk : k < 4) :
    memRead (a + BitVec.ofNat 32 k).toNat (stwuDone rs a ra s).mem = some (lane (readGpr rs s) k) := by
  rw [stwuDone_mem]
  exact memWriteWord_lane a _ _ hk

theorem sameMemoryBut_stwuDone (rs : Reg) (a : Word) (ra : Reg) (s : State) :
    SameMemoryBut a s (stwuDone rs a ra s) := fun b h0 h1 h2 h3 => by
  rw [stwuDone_mem, memWriteWord_other a _ _ (by simpa [byteAddr] using h0) h1 h2 h3]

/-- The one bus cycle of the store (R106, log 26). -/
theorem stwuDone_cycles (rs : Reg) (a : Word) (ra : Reg) (s : State) :
    (stwuDone rs a ra s).cpu.flight.cycles = s.cpu.flight.cycles ++ [⟨a, true, 4, busWord a (readGpr rs s)⟩] :=
  congrArg Flight.cycles (completeSequential_flight _)

/-- Settles O23: the store, byte by byte, and the update of rA. -/
theorem stwuStoresAndUpdates : Obligations.StwuStoresAndUpdates := by
  intro rs ra d s
  refine ⟨_, exec_stwu rs d ra s, ?_, fun q hq => ?_, by simp [stwuDone], by simp [stwuDone],
    by simp [stwuDone, SameExceptionRegs], by simp [stwuDone, SameModes], by simp [stwuDone],
    completeSequential_events _⟩
  · rintro a rfl
    generalize readGpr ra s + BitVec.ofInt 32 d = a
    have hfirst : memRead a.toNat (stwuDone rs a ra s).mem = some (lane (readGpr rs s) 0) := by
      simpa using memRead_stwuDone rs a ra s (k := 0) (by omega)
    exact ⟨hfirst, memRead_stwuDone rs a ra s (by omega), memRead_stwuDone rs a ra s (by omega),
      memRead_stwuDone rs a ra s (by omega), sameMemoryBut_stwuDone rs a ra s,
      by rw [stwuDone, readGpr_completeSequential, readGpr_writeGpr_same],
      stwuDone_cycles rs a ra s, fun k hk => lane_busWord a _ hk⟩
  · rw [stwuDone, readGpr_completeSequential, readGpr_writeGpr_other hq, readGpr_storeWord]

end Sys2Proof.Machine
end

section
/-! SUPPORT and PROOFS. What becomes of an event (60_exceptions.md R441 to R455): the bit it has in the ECR and the DER,
its handler or debug mode outside debug mode, the machine check by Table 21-9, and the step that takes an asynchronous
event between two instructions. -/

namespace Sys2Proof.Machine

/-! ### The bit of an event (R34, R441) -/

/-- The number of an event in R441, which is its bit in the ECR and in the DER. -/
def eventBit : Event → Nat
  | .nmi => 1
  | .checkStop => 2
  | .machineCheck => 3
  | .extInt => 6
  | .alignment => 7
  | .program => 8
  | .fpUnavail => 9
  | .decrementer => 10
  | .sysCall => 13
  | .trace => 14
  | .fpAssist => 15
  | .softEmul => 17
  | .itlbError => 19
  | .dtlbError => 21
  | .loadStoreBreak => 28
  | .instrBreak => 29
  | .extBreak => 30
  | .devPortInt => 31

theorem eventMask_eq_shift (e : Event) : eventMask e = 0x80000000#32 >>> eventBit e := by
  cases e <;> rfl

theorem eventMask_eq_twoPow (e : Event) : eventMask e = BitVec.twoPow 32 (31 - eventBit e) := by
  cases e <;> rfl

theorem eventBit_lt (e : Event) : eventBit e < 32 := by
  cases e <;> decide

/-- An event is enabled by its own bit of the DER. -/
theorem eventEnabled_eq_getMsbD (e : Event) (s : State) : eventEnabled e s = s.dev.der.getMsbD (eventBit e) := by
  have hlt := eventBit_lt e
  rw [eventEnabled, eventMask_eq_twoPow, and_twoPow_bne _ (by omega)]
  simp [BitVec.getMsbD, hlt]

/-- A cause bit of the ECR is one that stood or that of the recorded event. -/
theorem getMsbD_or_eventMask (w : Word) (e : Event) (k : Nat) :
    (w ||| eventMask e).getMsbD k = (w.getMsbD k || decide (k = eventBit e)) := by
  have hlt := eventBit_lt e
  have hmask : (eventMask e).getMsbD k = decide (k = eventBit e) := by
    rw [eventMask_eq_twoPow]
    simp only [BitVec.getMsbD, BitVec.getLsbD_twoPow, ← Bool.decide_and, decide_eq_decide]
    omega
  rw [BitVec.getMsbD_or, hmask]

/-! ### SRR0 and SRR1 (D7) -/

/-- Breakpoints and asynchronous events save the address at which execution resumes. -/
theorem srr0For_resume {e : Event}
    (h : e ∈ [.instrBreak, .loadStoreBreak, .extBreak, .devPortInt, .nmi, .extInt, .decrementer]) (resume : Word) :
    srr0For e resume = resume := by
  fin_cases h <;> rfl

/-- The bits of SRR1 that hold the named MSR bits are those of the saved MSR, whatever the rest of SRR1 is. -/
theorem srr1Bit_srr1Image (e : Option Event) (m : Msr) {k : Fin 32} (hk : msrNamedMask.getMsbD k = true) :
    srr1Bit (srr1Image e m) k = (msrNamedBits m).getMsbD k := by
  rw [srr1Image, srr1Bit_toSrr1, BitVec.getMsbD_or, BitVec.getMsbD_and, BitVec.getMsbD_not, hk]
  simp

/-- Each named MSR bit at its position. -/
theorem msrNamedBits_getMsbD (m : Msr) :
    (msrNamedBits m).getMsbD 16 = m.ee ∧ (msrNamedBits m).getMsbD 17 = m.pr ∧ (msrNamedBits m).getMsbD 19 = m.me ∧
      (msrNamedBits m).getMsbD 21 = m.se ∧ (msrNamedBits m).getMsbD 22 = m.be ∧ (msrNamedBits m).getMsbD 30 = m.ri := by
  have hbit : ∀ (b : Bool) (v : Word) (k : Nat), (if b then v else 0#32).getMsbD k = (b && v.getMsbD k) := by
    intro b v k
    cases b <;> simp
  simp [msrNamedBits, hbit]

theorem srr1Image_saves_msr (e : Option Event) (m : Msr) :
    srr1Bit (srr1Image e m) 16 = m.ee ∧ srr1Bit (srr1Image e m) 17 = m.pr ∧ srr1Bit (srr1Image e m) 19 = m.me ∧
      srr1Bit (srr1Image e m) 21 = m.se ∧ srr1Bit (srr1Image e m) 22 = m.be ∧ srr1Bit (srr1Image e m) 30 = m.ri := by
  obtain ⟨hee, hpr, hme, hse, hbe, hri⟩ := msrNamedBits_getMsbD m
  have saved : ∀ k : Fin 32, msrNamedMask.getMsbD k = true → srr1Bit (srr1Image e m) k = (msrNamedBits m).getMsbD k :=
    fun k hk => srr1Bit_srr1Image e m hk
  exact ⟨(saved 16 rfl).trans hee, (saved 17 rfl).trans hpr, (saved 19 rfl).trans hme, (saved 21 rfl).trans hse,
    (saved 22 rfl).trans hbe, (saved 30 rfl).trans hri⟩

/-! ### An event outside debug mode (R450, R451, R452) -/

theorem raise_outside_srr1 {s : State} (h : s.mode.dm = false) (e : Event) (resume : Word) :
    (raise e resume s).cpu.srr1 = srr1Image (some e) s.cpu.msr := by
  rcases raiseAll_cases e [] resume s with ⟨hin, _⟩ | ⟨_, hd, ha, _⟩ | ⟨_, hno, _⟩
  · rw [h] at hin; cases hin
  · rw [raise_debug h (by simpa using ha) hd]
    simp
  · rw [raise_regular h (by simpa [or_comm] using hno)]
    simp

theorem sameGprs_raise (e : Event) (resume : Word) (s : State) : SameGprs s (raise e resume s) :=
  readGpr_congr (raise_gpr e resume s)

theorem sameMemory_raise (e : Event) (resume : Word) (s : State) : SameMemory s (raise e resume s) := fun a => by
  rw [raise_mem]

/-- What an event that goes to its handler does to the modes, the pc, the MSR and the trace (R192, R451, R481). -/
theorem raise_handler {s : State} (h : s.mode.dm = false) {e : Event}
    (he : eventEnabled e s = false ∨ s.mode.dme = false) (resume : Word) :
    (raise e resume s).mode = { s.mode with frz := s.mode.frz || eventEnabled e s } ∧
      (raise e resume s).cpu.pc = vectorOf e s.cpu.msr ∧ (raise e resume s).cpu.msr = msrAfterException e s.cpu.msr ∧
      (raise e resume s).trace.events = s.trace.events ++ [.typeCode 0b100#3] ∧
      (raise e resume s).trace.mark = s.trace.mark.join FetchMark.indirect := by
  rw [raise_regular h he]
  simp [regularException, reportType_events, markNext_mark, h]

/-- Settles O35: the event goes to its handler, which saves the MSR and marks the next fetch. -/
theorem regularExceptionTaken : Obligations.RegularExceptionTaken := by
  intro e resume s _ hdm hno
  have hoff : eventEnabled e s = false ∨ s.mode.dme = false := hno.imp_left fun h => by simp [eventEnabled, h]
  obtain ⟨hmode, hpc, hmsr, hevents, hmark⟩ := raise_handler hdm hoff resume
  obtain ⟨hsrr0, hport, _⟩ := raise_outside hdm e resume
  obtain ⟨hee, hpr, hme, hse, hbe, hri⟩ := srr1Image_saves_msr (some e) s.cpu.msr
  rw [raise_outside_srr1 hdm, hmsr, hmark]
  exact ⟨raise_dev e resume s, hmode, hpc, rfl, rfl, rfl, fun he => hsrr0.trans (srr0For_resume he resume), hee, hpr,
    hme, hse, hbe, hri, hevents, Bool.or_true _, sameGprs_raise e resume s, hport, sameMemory_raise e resume s⟩

/-- What an event that enters debug mode does to the modes, the MSR, what the CPU waits for and the trace (R195,
R452). -/
theorem raise_enters {s : State} (h : s.mode.dm = false) {e : Event} (he : eventEnabled e s = true)
    (hd : s.mode.dme = true) (resume : Word) :
    (raise e resume s).mode = { s.mode with dm := true, frz := true } ∧
      (raise e resume s).cpu.msr = msrAfterDebugEntry (some e) s.cpu.msr ∧ (raise e resume s).cpu.wait = CpuWait.instr ∧
      ∃ a, (raise e resume s).trace.events = s.trace.events ++ [.typeCode 0b100#3, .showCycle a true] := by
  rw [raise_debug h he hd]
  exact ⟨rfl, rfl, rfl, _, rfl⟩

/-- Settles O36: debug mode is entered with the MSR saved and the CPU waiting for the tool. -/
theorem debugModeEntered : Obligations.DebugModeEntered := by
  intro e resume s hdm hset hdme
  obtain ⟨hmode, hmsr, hwait, hevents⟩ := raise_enters hdm (e := e) (by simp [eventEnabled, hset]) hdme resume
  obtain ⟨hsrr0, hport, _⟩ := raise_outside hdm e resume
  obtain ⟨hee, hpr, hme, hse, hbe, hri⟩ := srr1Image_saves_msr (some e) s.cpu.msr
  rw [raise_outside_srr1 hdm, hmsr]
  exact ⟨raise_dev e resume s, hmode, rfl, rfl, hwait, fun he => hsrr0.trans (srr0For_resume he resume), hee, hpr, hme,
    hse, hbe, hri, hevents, sameGprs_raise e resume s, hport, sameMemory_raise e resume s⟩

end Sys2Proof.Machine
end

section
/-! SUPPORT and PROOFS. Machine checks and asynchronous events (60_exceptions.md R441 to R448, R455): Table 21-9, and
the step that takes what waits before the instruction at the pc (log 15, log 49). -/

namespace Sys2Proof.Machine

/-! ### The machine check (R455, Table 21-9) -/

/-- A machine check enters debug mode. -/
def machineCheckEnters (s : State) : Bool := s.dev.der.getMsbD (eventBit (machineCheckEvent s)) && s.mode.dme

theorem machineCheckEvent_off {s : State} (h : s.cpu.msr.me = false) : machineCheckEvent s = .checkStop := by
  simp [machineCheckEvent, h]

theorem machineCheckEvent_on {s : State} (h : s.cpu.msr.me = true) : machineCheckEvent s = .machineCheck := by
  simp [machineCheckEvent, h]

theorem machineCheckEvent_cases (s : State) :
    machineCheckEvent s = .machineCheck ∨ machineCheckEvent s = .checkStop := by
  cases h : s.cpu.msr.me
  · exact .inr (machineCheckEvent_off h)
  · exact .inl (machineCheckEvent_on h)

@[simp] theorem raiseMachineCheck_gpr (async : Bool) (resume : Word) (s : State) :
    (raiseMachineCheck async resume s).cpu.gpr = s.cpu.gpr := by
  rcases raiseMachineCheck_cases async resume s with ⟨_, h⟩ | ⟨_, _, _, h⟩ | ⟨_, _, _, h⟩ | ⟨_, _, _, h⟩ <;> simp [h]

@[simp] theorem raiseMachineCheck_ext (async : Bool) (resume : Word) (s : State) :
    (raiseMachineCheck async resume s).ext = s.ext := by
  rcases raiseMachineCheck_cases async resume s with ⟨_, h⟩ | ⟨_, _, _, h⟩ | ⟨_, _, _, h⟩ | ⟨_, _, _, h⟩ <;> simp [h]

@[simp] theorem raiseMachineCheck_dme (async : Bool) (resume : Word) (s : State) :
    (raiseMachineCheck async resume s).mode.dme = s.mode.dme := by
  rcases raiseMachineCheck_cases async resume s with ⟨_, h⟩ | ⟨_, _, _, h⟩ | ⟨_, _, _, h⟩ | ⟨_, _, _, h⟩ <;> simp [h]

/-- With MSR.ME = 0 the condition enters debug mode by DME and CHSTPE. -/
theorem machineCheckEnters_off {s : State} (h : s.cpu.msr.me = false) :
    machineCheckEnters s = (s.mode.dme && s.dev.der.getMsbD 2) := by
  rw [machineCheckEnters, machineCheckEvent_off h, Bool.and_comm]
  rfl

/-- With MSR.ME = 1 it enters debug mode by DME and MCEE. -/
theorem machineCheckEnters_on {s : State} (h : s.cpu.msr.me = true) :
    machineCheckEnters s = (s.mode.dme && s.dev.der.getMsbD 3) := by
  rw [machineCheckEnters, machineCheckEvent_on h, Bool.and_comm]
  rfl

/-- The cause bit of a machine check is that of its event, in debug mode and outside it. -/
theorem raiseMachineCheck_records (async : Bool) (resume : Word) (s : State) :
    (raiseMachineCheck async resume s).dev = { s.dev with ecr := s.dev.ecr ||| eventMask (machineCheckEvent s) } := by
  rcases raiseMachineCheck_cases async resume s with ⟨_, h⟩ | ⟨_, _, _, h⟩ | ⟨_, hme, _, h⟩ | ⟨_, hme, _, h⟩ <;> rw [h]
  · rfl
  · rfl
  · simp [machineCheckEvent_on hme]
  · simp [machineCheckEvent_off hme]

/-- Outside debug mode a machine check enters it, stops the CPU, or goes to its handler. -/
theorem raiseMachineCheck_outside {s : State} (hdm : s.mode.dm = false) (hrun : s.cpu.checkStop = false) (async : Bool)
    (resume : Word) :
    (raiseMachineCheck async resume s).mode.dm = machineCheckEnters s ∧
      (raiseMachineCheck async resume s).cpu.checkStop = (!s.cpu.msr.me && !machineCheckEnters s) ∧
      (raiseMachineCheck async resume s).port = s.port := by
  have hno : s.mode.dme = false ∨ eventEnabled (machineCheckEvent s) s = false → machineCheckEnters s = false :=
    fun h => by rcases h with h | h <;> simp [machineCheckEnters, ← eventEnabled_eq_getMsbD, h]
  rcases raiseMachineCheck_cases async resume s with
    ⟨hin, _⟩ | ⟨_, hdme, hon, h⟩ | ⟨_, hme, hoff, h⟩ | ⟨_, hme, hoff, h⟩
  · rw [hdm] at hin; cases hin
  · have henters : machineCheckEnters s = true := by simp [machineCheckEnters, ← eventEnabled_eq_getMsbD, hdme, hon]
    rw [h, henters]
    simp [hrun]
  · rw [h, hno (machineCheckEvent_on hme ▸ hoff)]
    simp [hdm, hrun, hme]
  · rw [h, hno (machineCheckEvent_off hme ▸ hoff)]
    simp [hdm, hme]

/-- With MSR.ME = 1 and debug mode not entered, the machine check interrupt is taken. -/
theorem raiseMachineCheck_handler {s : State} (hdm : s.mode.dm = false) (hme : s.cpu.msr.me = true)
    (hno : machineCheckEnters s = false) (async : Bool) (resume : Word) :
    (raiseMachineCheck async resume s).cpu.pc = vectorOf .machineCheck s.cpu.msr := by
  rcases raiseMachineCheck_cases async resume s with ⟨hin, _⟩ | ⟨_, hdme, hon, _⟩ | ⟨_, _, _, h⟩ | ⟨_, hme', _, _⟩
  · rw [hdm] at hin; cases hin
  · rw [machineCheckEnters, ← eventEnabled_eq_getMsbD, hdme, hon] at hno; cases hno
  · simp [h]
  · rw [hme] at hme'; cases hme'

/-- Unless the CPU stops, an asynchronous machine check saves the address of the next instruction (D7). -/
theorem raiseMachineCheck_async_srr0 {s : State} (hdm : s.mode.dm = false) (resume : Word)
    (hstop : (raiseMachineCheck true resume s).cpu.checkStop = false) :
    (raiseMachineCheck true resume s).cpu.srr0 = resume := by
  rcases raiseMachineCheck_cases true resume s with ⟨hin, _⟩ | ⟨_, _, _, h⟩ | ⟨_, _, _, h⟩ | ⟨_, _, _, h⟩
  · rw [hdm] at hin; cases hin
  · simp [h, machineCheckSrr0]
  · simp [h, machineCheckSrr0]
  · rw [h] at hstop; cases hstop

/-- DAR and DSISR may have been drawn before a machine check is raised; nothing else of the CPU, and no other
register. -/
theorem saveFaultAddress_frame (e : CpuExc) (s : State) :
    ∃ a d k, saveFaultAddress e s = { s with cpu := { s.cpu with dar := a, dsisr := d }, draws := k } := by
  cases e <;> exact ⟨_, _, _, rfl⟩

/-! ### Asynchronous events (R441, R446, R447, R455) -/

/-- A machine check condition that waits is raised with DAR and DSISR drawn. -/
theorem raiseAsync_machineCheck {e : Event} (h : e = .machineCheck ∨ e = .checkStop) (s : State) :
    raiseAsync e s = raiseMachineCheck true s.cpu.pc (saveFaultAddress .machineCheck s) := by
  rcases h with rfl | rfl <;> rfl

/-- Every other asynchronous event is raised as it is. -/
theorem raiseAsync_event {e : Event} (h : e ≠ .machineCheck) (h' : e ≠ .checkStop) (s : State) :
    raiseAsync e s = raise e s.cpu.pc s := by
  simp [raiseAsync, h, h']

@[simp] theorem raiseAsync_gpr (e : Event) (s : State) : (raiseAsync e s).cpu.gpr = s.cpu.gpr := by
  unfold raiseAsync
  split
  · obtain ⟨a, d, k, h⟩ := saveFaultAddress_frame .machineCheck s
    rw [raiseMachineCheck_gpr, h]
  · exact raise_gpr _ _ s

@[simp] theorem raiseAsync_ext (e : Event) (s : State) : (raiseAsync e s).ext = s.ext := by
  unfold raiseAsync
  split
  · obtain ⟨a, d, k, h⟩ := saveFaultAddress_frame .machineCheck s
    rw [raiseMachineCheck_ext, h]
  · exact raise_ext _ _ s

theorem sameGprs_takeAsync (e : Event) (s : State) : SameGprs s (takeAsync e s) :=
  readGpr_congr (raiseAsync_gpr e { acceptAsync e s with trace.pins := WatchPins.quiet })

theorem sameMemory_takeAsync (e : Event) (s : State) : SameMemory s (takeAsync e s) := fun a => by
  rw [takeAsync_mem]

/-- What was latched and is taken waits no longer. -/
theorem takeAsync_ext (e : Event) (s : State) : (takeAsync e s).ext = (acceptAsync e s).ext :=
  raiseAsync_ext e { acceptAsync e s with trace.pins := WatchPins.quiet }

/-- An asynchronous event that is no machine check sets its cause bit, saves the pc and goes to debug mode or to its
handler. -/
theorem takeAsync_event {s : State} {e : Event} (hdm : s.mode.dm = false)
    (he : e ∈ [.devPortInt, .extBreak, .nmi, .extInt, .decrementer]) :
    (takeAsync e s).dev = { s.dev with ecr := s.dev.ecr ||| eventMask e } ∧ (takeAsync e s).cpu.srr0 = s.cpu.pc ∧
      (takeAsync e s).mode.dm = (s.dev.der.getMsbD (eventBit e) && s.mode.dme) := by
  obtain ⟨hmc, hcs, hresume⟩ : e ≠ .machineCheck ∧ e ≠ .checkStop ∧ srr0For e s.cpu.pc = s.cpu.pc := by
    fin_cases he <;> exact ⟨by decide, by decide, rfl⟩
  simp only [takeAsync, raiseAsync_event hmc hcs]
  have hadm : { acceptAsync e s with trace.pins := WatchPins.quiet }.mode.dm = false := hdm
  have hdev := raise_dev e s.cpu.pc { acceptAsync e s with trace.pins := WatchPins.quiet }
  obtain ⟨hsrr0, _, hdebug⟩ := raise_outside hadm e s.cpu.pc
  rw [eventEnabled_eq_getMsbD] at hdebug
  exact ⟨hdev, hsrr0.trans hresume, hdebug⟩

/-- A machine check condition that waited follows Table 21-9. -/
theorem takeAsync_machineCheck {s : State} (hdm : s.mode.dm = false) (hrun : s.cpu.checkStop = false) :
    (takeAsync (machineCheckEvent s) s).dev = { s.dev with ecr := s.dev.ecr ||| eventMask (machineCheckEvent s) } ∧
      (takeAsync (machineCheckEvent s) s).mode.dm = machineCheckEnters s ∧
      (takeAsync (machineCheckEvent s) s).cpu.checkStop = (!s.cpu.msr.me && !machineCheckEnters s) ∧
      ((takeAsync (machineCheckEvent s) s).cpu.checkStop = false →
        (takeAsync (machineCheckEvent s) s).cpu.srr0 = s.cpu.pc) := by
  simp only [takeAsync, raiseAsync_machineCheck (machineCheckEvent_cases s)]
  generalize ha : saveFaultAddress .machineCheck
    { acceptAsync (machineCheckEvent s) s with trace.pins := WatchPins.quiet } = a
  have hadm : a.mode.dm = false := by rw [← ha]; exact hdm
  have harun : a.cpu.checkStop = false := by rw [← ha]; exact hrun
  have hdev := raiseMachineCheck_records true s.cpu.pc a
  obtain ⟨hdebug, hstop, _⟩ := raiseMachineCheck_outside hadm harun true s.cpu.pc
  have hsrr0 := raiseMachineCheck_async_srr0 hadm s.cpu.pc
  rw [← ha] at hdev hdebug hstop hsrr0 ⊢
  exact ⟨hdev, hdebug, hstop, hsrr0⟩

/-- With no input left the step takes the event that waits alone, before the instruction at the pc. -/
theorem step_takesAsync {s : State} {e : Event} (hin : s.ext.inputs = []) (hrun : s.cpu.checkStop = false)
    (hdm : s.mode.dm = false) (hheld : (s.port.tecr.nmbrk && s.nmbrkTaken) = false) (hp : pendingEvents s = [e]) :
    step s = .next (takeAsync e s) := by
  simp [step, stepMachine, hin, cpuStep, hrun, waitsForTool, hdm, runStep, hheld, hp]

/-! ### O38 -/

theorem sameGprs_raiseMachineCheck (async : Bool) (resume : Word) (s : State) :
    SameGprs s (raiseMachineCheck async resume s) :=
  readGpr_congr (raiseMachineCheck_gpr async resume s)

theorem sameMemory_raiseMachineCheck (async : Bool) (resume : Word) (s : State) :
    SameMemory s (raiseMachineCheck async resume s) := fun a => by
  rw [raiseMachineCheck_mem]

/-- In debug mode the condition is recorded at once; DAR and DSISR are drawn (R455, R460, log 33). -/
theorem step_recordsMachineCheck {s : State} {rest : List Input} (hin : s.ext.inputs = .machineCheck :: rest)
    (hdm : s.mode.dm = true) : step s = .next (recordMachineCheck { s with ext.inputs := rest }) := by
  simp [step, stepMachine, hin, assertMachineCheck, hdm]

/-- The number of the event of a machine check condition. -/
theorem eventBit_machineCheckEvent (s : State) : eventBit (machineCheckEvent s) = if s.cpu.msr.me then 3 else 2 := by
  cases h : s.cpu.msr.me
  · rw [machineCheckEvent_off h]; rfl
  · rw [machineCheckEvent_on h]; rfl

/-- The rows of Table 21-9 with MSR.ME = 0: debug mode or the check stop state. -/
theorem raiseMachineCheck_table_off {s : State} (hdm : s.mode.dm = false) (hrun : s.cpu.checkStop = false)
    (hme : s.cpu.msr.me = false) (async : Bool) (resume : Word) :
    (raiseMachineCheck async resume s).dev = { s.dev with ecr := s.dev.ecr ||| 0x20000000#32 } ∧
      (if s.mode.dme && s.dev.der.getMsbD 2 then
        (raiseMachineCheck async resume s).mode.dm = true ∧ (raiseMachineCheck async resume s).cpu.checkStop = false
       else
        (raiseMachineCheck async resume s).mode.dm = false ∧
          (raiseMachineCheck async resume s).cpu.checkStop = true) := by
  have hdev := raiseMachineCheck_records async resume s
  obtain ⟨hdebug, hstop, _⟩ := raiseMachineCheck_outside hdm hrun async resume
  rw [machineCheckEvent_off hme] at hdev
  rw [hme] at hstop
  refine ⟨hdev, ?_⟩
  rw [← machineCheckEnters_off hme]
  split
  · next h => rw [h] at hdebug hstop; exact ⟨hdebug, hstop⟩
  · next h => rw [Bool.not_eq_true] at h; rw [h] at hdebug hstop; exact ⟨hdebug, hstop⟩

/-- The rows with MSR.ME = 1: debug mode or the machine check interrupt. -/
theorem raiseMachineCheck_table_on {s : State} (hdm : s.mode.dm = false) (hrun : s.cpu.checkStop = false)
    (hme : s.cpu.msr.me = true) (async : Bool) (resume : Word) :
    (raiseMachineCheck async resume s).dev = { s.dev with ecr := s.dev.ecr ||| 0x10000000#32 } ∧
      (raiseMachineCheck async resume s).cpu.checkStop = false ∧
      (if s.mode.dme && s.dev.der.getMsbD 3 then (raiseMachineCheck async resume s).mode.dm = true
       else (raiseMachineCheck async resume s).mode.dm = false ∧
        (raiseMachineCheck async resume s).cpu.pc = Config.vectorWord .machineCheck s.cpu.msr ++ 0#2) := by
  have hdev := raiseMachineCheck_records async resume s
  obtain ⟨hdebug, hstop, _⟩ := raiseMachineCheck_outside hdm hrun async resume
  rw [machineCheckEvent_on hme] at hdev
  rw [hme] at hstop
  refine ⟨hdev, hstop, ?_⟩
  rw [← machineCheckEnters_on hme]
  split
  · next h => exact hdebug.trans h
  · next h =>
    rw [Bool.not_eq_true] at h
    exact ⟨hdebug.trans h, raiseMachineCheck_handler hdm hme h async resume⟩

/-- Settles O38: the table by the cases of MSR.ME; as a step the condition is the only pending event. -/
theorem machineCheckTable : Obligations.MachineCheckTable := by
  intro async resume s rest
  refine ⟨fun hdm hrun => ?_, fun hdm hrun hin hmc hnmi hext hdecr hnmbrk hbrk => ?_, fun hin hdm => ?_⟩
  · have hsrr0 : async = true → (raiseMachineCheck async resume s).cpu.checkStop = false →
        (raiseMachineCheck async resume s).cpu.srr0 = resume := by
      rintro rfl
      exact raiseMachineCheck_async_srr0 hdm resume
    refine ⟨sameGprs_raiseMachineCheck async resume s, sameMemory_raiseMachineCheck async resume s, hsrr0, ?_⟩
    cases hme : s.cpu.msr.me with
    | false => exact raiseMachineCheck_table_off hdm hrun hme async resume
    | true => exact raiseMachineCheck_table_on hdm hrun hme async resume
  · have hp : pendingEvents s = [machineCheckEvent s] := by
      simp [pendingEvents, hnmi, hmc, hext, hdecr, hbrk, hnmbrk]
    obtain ⟨hdev, hdebug, hstop, hsrr0⟩ := takeAsync_machineCheck hdm hrun
    refine ⟨_, step_takesAsync hin hrun hdm (by simp [hnmbrk]) hp, ?_, sameGprs_takeAsync _ s, sameMemory_takeAsync _ s,
      fun n hn => ?_, hsrr0⟩
    · rw [takeAsync_ext]
      rcases machineCheckEvent_cases s with h | h <;> simp [h, acceptAsync]
    · rw [← eventBit_machineCheckEvent] at hn
      subst hn
      rw [← eventMask_eq_shift]
      refine ⟨hdev, hdebug, hstop.trans ?_⟩
      cases hme : s.cpu.msr.me <;> simp [machineCheckEnters, eventBit_machineCheckEvent, hme]
  · refine ⟨_, step_recordsMachineCheck hin hdm, ?_, rfl, rfl, rfl, rfl, rfl⟩
    cases hme : s.cpu.msr.me <;> simp [recordMachineCheck, machineCheckEvent, saveFaultAddress, hme, eventMask]

end Sys2Proof.Machine
end

section
/-! SUPPORT and PROOFS. Debug mode and the check stop state over a step (60_exceptions.md R440, R451, R455, R470, R488,
R491): debug mode is entered only where it is enabled and left only by `rfi`; outside debug mode what is neither the
CPU nor a reset reaches neither the CPU nor the memory. -/

namespace Sys2Proof.Machine

/-! ### Entering and leaving debug mode -/

/-- From `s` to `t` debug mode is entered only where it is enabled, and left only if `leaves`. -/
structure DebugGuarded (leaves : Prop) (s t : State) : Prop where
  dme : t.mode.dme = s.mode.dme
  entered : t.mode.dm = true → s.mode.dm = true ∨ s.mode.dme = true
  left : t.mode.dm = false → s.mode.dm = false ∨ leaves

section
variable {leaves : Prop} {s t u : State}

theorem DebugGuarded.of_latches (hdm : t.mode.dm = s.mode.dm) (hdme : t.mode.dme = s.mode.dme) :
    DebugGuarded leaves s t where
  dme := hdme
  entered h := .inl (hdm ▸ h)
  left h := .inl (hdm ▸ h)

theorem DebugGuarded.of_eq (h : t.mode = s.mode) : DebugGuarded leaves s t :=
  .of_latches (by rw [h]) (by rw [h])

theorem DebugGuarded.trans (h : DebugGuarded leaves s t) (h' : DebugGuarded leaves t u) : DebugGuarded leaves s u where
  dme := h'.dme.trans h.dme
  entered hu := (h'.entered hu).elim h.entered fun hd => .inr (h.dme ▸ hd)
  left hu := (h'.left hu).elim h.left .inr

/-- What leaves the modes alone, before. -/
theorem DebugGuarded.after (h : DebugGuarded leaves t u) (ht : t.mode = s.mode) : DebugGuarded leaves s u :=
  (DebugGuarded.of_eq ht).trans h

/-- What leaves the modes alone, after. -/
theorem DebugGuarded.quiet (h : DebugGuarded leaves s t) (hu : u.mode = t.mode) : DebugGuarded leaves s u :=
  h.trans (.of_eq hu)

theorem DebugGuarded.of_entered (hd : s.mode.dme = true) (hdm : t.mode.dm = true) (hdme : t.mode.dme = s.mode.dme) :
    DebugGuarded leaves s t where
  dme := hdme
  entered _ := .inr hd
  left h := by rw [hdm] at h; cases h

/-! ### Taking an exception and returning from it -/

theorem debugGuarded_raiseAll (e : Event) (es : List Event) (resume : Word) (s : State) :
    DebugGuarded leaves s (raiseAll e es resume s) := by
  rcases raiseAll_cases e es resume s with ⟨_, b, p, h⟩ | ⟨_, hdme, _, e', a, b, z, h⟩ | ⟨_, _, e', a, b, z, h⟩ <;>
    rw [h]
  · exact .of_eq rfl
  · exact .of_entered hdme rfl rfl
  · exact .of_latches (by simp) (by simp)

theorem debugGuarded_raise (e : Event) (resume : Word) (s : State) : DebugGuarded leaves s (raise e resume s) :=
  debugGuarded_raiseAll e [] resume s

theorem debugGuarded_raiseMachineCheck (async : Bool) (resume : Word) (s : State) :
    DebugGuarded leaves s (raiseMachineCheck async resume s) := by
  rcases raiseMachineCheck_cases async resume s with ⟨_, h⟩ | ⟨_, hdme, _, h⟩ | ⟨_, _, _, h⟩ | ⟨_, _, _, h⟩ <;> rw [h]
  · exact .of_eq rfl
  · exact .of_entered hdme rfl rfl
  · exact .of_latches (by simp) (by simp)
  · exact .of_latches rfl rfl

theorem saveFaultAddress_mode (e : CpuExc) (s : State) : (saveFaultAddress e s).mode = s.mode := by
  cases e <;> rfl

theorem debugGuarded_raiseCpuExc (e : CpuExc) (s : State) : DebugGuarded leaves s (raiseCpuExc e s) := by
  refine .after ?_ (saveFaultAddress_mode e s)
  cases e with
  | machineCheck => exact debugGuarded_raiseMachineCheck _ _ _
  | _ => exact debugGuarded_raise _ _ _

theorem debugGuarded_takeAsync (e : Event) (s : State) : DebugGuarded leaves s (takeAsync e s) := by
  have hraise : ∀ u, DebugGuarded leaves u (raiseAsync e u) := fun u => by
    unfold raiseAsync
    split
    · exact .after (debugGuarded_raiseMachineCheck _ _ _) (saveFaultAddress_mode .machineCheck u)
    · exact debugGuarded_raise _ _ u
  have haccepted : DebugGuarded leaves s (raiseAsync e { acceptAsync e s with trace.pins := WatchPins.quiet }) :=
    .after (hraise _) rfl
  exact haccepted.quiet rfl

/-- Only the return from an exception leaves debug mode; it enters it again only where it is enabled (R470, R471). -/
theorem debugGuarded_returnFromException (hl : leaves) (s : State) : DebugGuarded leaves s (returnFromException s) := by
  unfold returnFromException
  split
  · next hdm =>
    split
    · exact ⟨by simp, fun _ => .inl hdm, fun _ => .inr hl⟩
    · exact ⟨by simp, fun _ => .inl hdm, fun _ => .inr hl⟩
  · exact .of_latches (by simp) (by simp)

/-! ### The instructions of the CPU -/

theorem debugGuarded_mfspr {n : Spr} {rd : Reg} (h : exec (.mfspr rd n) s = .next t) : DebugGuarded leaves s t := by
  by_cases hn : n = .dpdr
  · subst hn
    simp only [Instr.mfspr, exec, execMfsprDpdr] at h
    split at h
    · cases h; exact debugGuarded_raise _ _ s
    · split at h <;> cases h <;> exact .of_eq (by simp)
  · obtain ⟨v, k, he⟩ := exec_mfspr hn rd s
    rw [he] at h
    split at h <;> cases h
    · exact debugGuarded_raise _ _ s
    · have hread : (if n = .ecr then clearEcrOnRead s else s).mode = s.mode := by split <;> simp
      exact .of_eq (by simp [hread])

theorem debugGuarded_mtspr {n : Spr} {rs : Reg} (h : exec (.mtspr rs n) s = .next t) : DebugGuarded leaves s t := by
  rw [exec_mtspr] at h
  split at h
  · cases h; exact debugGuarded_raise _ _ s
  · split at h <;> cases h <;> exact .of_eq (by simp)

theorem debugGuarded_mtmsr {rs : Reg} (h : exec (.mtmsr rs) s = .next t) : DebugGuarded leaves s t := by
  simp only [exec, execMtmsr] at h
  split at h
  · cases h; exact debugGuarded_raise _ _ s
  · split at h <;> cases h
    exact .of_eq (by simp)

theorem debugGuarded_rfi (hl : leaves) (h : exec .rfi s = .next t) : DebugGuarded leaves s t := by
  simp only [exec, execRfi] at h
  split at h <;> cases h
  · exact debugGuarded_raise _ _ s
  · exact debugGuarded_returnFromException hl s

theorem debugGuarded_moveException {draw : State → State} (hdraw : ∀ u, (draw u).mode = u.mode) (s : State) :
    DebugGuarded leaves s (moveException draw s) := by
  have hp : DebugGuarded leaves s (programException s) := debugGuarded_raise _ _ s
  unfold moveException
  split
  · exact hp.quiet (hdraw _)
  · exact hp

/-- A row of the table that a CPU word decodes to. -/
theorem debugGuarded_exec_word {w : Word} {j : Instr} (hj : decodeWord w = .ok j) (hl : j = .rfi → leaves)
    (h : exec j s = .next t) : DebugGuarded leaves s t := by
  rcases decodeWord_cases hj with ⟨n, r, rfl⟩ | ⟨n, r, rfl⟩ | ⟨r, rfl⟩ | rfl | rfl | rfl | ⟨rs, d, ra, rfl⟩
  · exact debugGuarded_mfspr h
  · exact debugGuarded_mtspr h
  · exact debugGuarded_mtmsr h
  · cases h; exact .of_eq (by simp)
  · exact debugGuarded_rfi (hl rfl) h
  · cases h; exact .of_eq (by simp)
  · cases h; exact .of_eq (by simp)

/-- What the CPU executes for a word: only `rfi` leaves debug mode. -/
theorem debugGuarded_execCpu {w : Word} {i : CpuInstr} (hi : decodeCpu w = some i) (hl : i = .table .rfi → leaves)
    (h : execCpu i s = .next t) : DebugGuarded leaves s t := by
  rcases execCpu_next h with ⟨j, rfl, hj⟩ | ⟨rd, n, rfl, rfl⟩ | ⟨n, rs, rfl, rfl⟩
  · exact debugGuarded_exec_word (decodeWord_of_decodeCpu hi) (fun hrfi => hl (by rw [hrfi])) hj
  · split
    · exact debugGuarded_moveException (draw := fun u => writeGpr rd (freeWord 0 u) u) (fun _ => rfl) s
    · exact .of_eq (by simp)
  · split
    · exact debugGuarded_moveException (fun _ => by cases n <;> rfl) s
    · exact .of_eq (by cases n <;> simp [writeSave])

/-! ### The CPU's step -/

theorem settleIfm_mode (i : Option CpuInstr) (s t : State) : (settleIfm i s t).mode = t.mode := by
  unfold settleIfm; split <;> rfl

theorem debugGuarded_takeInstrBreak (i : Option CpuInstr) (s : State) : DebugGuarded leaves s (takeInstrBreak i s) :=
  .after (debugGuarded_raise _ _ _) (settleIfm_mode i s _)

theorem debugGuarded_raiseAfter (brk : Option Word) (trace : Bool) (t : State) :
    DebugGuarded leaves t (raiseAfter brk trace t) := by
  cases brk <;> cases trace
  case none.false => exact .of_eq rfl
  case none.true => exact debugGuarded_raise _ _ t
  case some.false => exact .after (debugGuarded_raise _ _ _) rfl
  case some.true => exact .after (debugGuarded_raiseAll _ _ _ _) rfl

theorem debugGuarded_retire (i : CpuInstr) (s t : State) : DebugGuarded leaves t (retire i s t) := by
  unfold retire
  split
  · exact .of_eq rfl
  · exact .after (debugGuarded_raiseAfter _ _ (reportRetired i s t (watched s t))) rfl

/-- The step of a fetched instruction, which may be `rfi`. -/
theorem debugGuarded_runFetched {i : Option CpuInstr}
    (hi : ∀ j, i = some j → ∃ w, decodeCpu w = some j) (h : runFetched i s = .next t) : DebugGuarded True s t := by
  rcases runFetched_next h with ⟨_, rfl⟩ | ⟨_, e, _, rfl⟩ | ⟨_, _, j, u, rfl, hu, rfl⟩
  · exact (debugGuarded_takeInstrBreak i s).quiet (finish_mode _ _)
  · have hexc : DebugGuarded True s (raiseCpuExc e { passBreak s with ext.cpuExc := none }) :=
      .after (debugGuarded_raiseCpuExc e _) (passBreak_mode s)
    exact hexc.quiet ((finish_mode _ _).trans (settleIfm_mode i s _))
  · obtain ⟨w, hw⟩ := hi j rfl
    have hexec : DebugGuarded True s u := .after (debugGuarded_execCpu hw (fun _ => trivial) hu) (passBreak_mode s)
    exact ((hexec.quiet (settleIfm_mode _ s u)).trans (debugGuarded_retire j s _)).quiet (finish_mode _ _)

theorem debugGuarded_runStep (h : runStep s = .next t) : DebugGuarded True s t := by
  rcases runStep_next h with ⟨e, es, _, rfl⟩ | ⟨_, w, _, hrun⟩ | ⟨_, _, _, hrun⟩
  · exact debugGuarded_takeAsync _ s
  · exact .after (debugGuarded_runFetched (s := fetched s) (fun _ hj => ⟨w, hj⟩) hrun) (fetched_mode s)
  · exact .after (debugGuarded_runFetched (s := fetched s) (fun _ hj => by cases hj) hrun) (fetched_mode s)

theorem finishDebug_mode (s t : State) : (finishDebug s t).mode = t.mode :=
  (fetchFromPort_mode _).trans (finish_mode s t)

theorem traceInDebug_mode (i : CpuInstr) (s t : State) : (traceInDebug i s t).mode = t.mode := by
  rcases traceInDebug_cases i s t with h | ⟨_, _, _, _, h⟩ <;> simp [h]

/-- The word the port delivered is `rfi`. -/
def DeliveredRfi (s : State) : Prop := s.cpu.dpir = some 0x4C000064#32

/-- Only one word is `rfi`. -/
theorem word_of_decodeCpu_rfi {w : Word} (h : decodeCpu w = some (.table .rfi)) : w = 0x4C000064#32 := by
  have hcode : Code.word 0x4C000064#32 = .word w := encodeDecodeAgree.2 w (.table .rfi) h
  exact (Code.word.inj hcode).symm

/-- A step in debug mode leaves it only where the port delivered `rfi` (R470). -/
theorem debugGuarded_debugStep (h : debugStep s = .next t) : DebugGuarded (DeliveredRfi s) s t := by
  rcases debugStep_next h with ⟨_, rfl⟩ | ⟨_, _, rfl⟩ | ⟨_, _, _, rfl⟩ | ⟨_, _, w, e, _, _, rfl⟩ |
    ⟨_, _, w, i, u, hw, _, hi, hu, rfl⟩
  · exact .of_eq rfl
  · exact .of_eq rfl
  · exact .of_eq (fetchFromPort_mode s)
  · have hexc : DebugGuarded (DeliveredRfi s) s (raiseCpuExc e { s with ext.cpuExc := none, cpu.dpir := none }) :=
      .after (debugGuarded_raiseCpuExc e _) rfl
    exact hexc.quiet ((finishDebug_mode _ _).trans (drawDestination_mode _ _ _))
  · have hrfi : i = .table .rfi → DeliveredRfi s := fun hi' => by
      subst hi'; rw [DeliveredRfi, hw, word_of_decodeCpu_rfi hi]
    have hexec : DebugGuarded (DeliveredRfi s) s u :=
      .after (t := { s with cpu.dpir := none }) (debugGuarded_execCpu hi hrfi hu) rfl
    exact hexec.quiet ((finishDebug_mode _ _).trans (traceInDebug_mode i s u))

/-- The CPU's step enters debug mode only where it is enabled, and leaves it only by a delivered `rfi`. -/
theorem debugGuarded_cpuStep (h : cpuStep s = .next t) :
    DebugGuarded (s.mode.dm = true → DeliveredRfi s) s t := by
  obtain ⟨_, _, ⟨_, hstep⟩ | ⟨hdm, hstep⟩⟩ := cpuStep_next h
  · obtain ⟨hdme, hin, hout⟩ := debugGuarded_debugStep hstep
    exact ⟨hdme, hin, fun ht => (hout ht).imp_right fun hrfi _ => hrfi⟩
  · obtain ⟨hdme, hin, _⟩ := debugGuarded_runStep hstep
    exact ⟨hdme, hin, fun _ => .inl hdm⟩

end

/-! ### The transmissions -/

theorem instrEffect_mode (w : Word) (s : State) : (instrEffect w s).mode = s.mode := by
  unfold instrEffect
  split
  · split
    · rfl
    · exact fetchFromPort_mode _
    · rfl
  · rfl

theorem dataEffect_mode (v : Word) (s : State) : (dataEffect v s).mode = s.mode := by
  unfold dataEffect
  split
  · split <;> simp
  · rfl

theorem tecrEffect_mode (l : TecrLayout) (d : BitVec 7) (s : State) : (tecrEffect l d s).mode = s.mode := by
  simp only [tecrEffect]
  split <;> simp

theorem startDownloadEffect_mode (s : State) : (startDownloadEffect s).mode = s.mode := by
  unfold startDownloadEffect supplyWaiting
  split
  · split <;> simp
  · rfl

theorem endDownloadEffect_mode (s : State) : (endDownloadEffect s).mode = s.mode := by
  unfold endDownloadEffect
  split <;> rfl

theorem transmit_mode {f : Frame} {e : State → State} {s t : State} (he : ∀ u, (e u).mode = u.mode)
    (h : transmit f e s = .next t) : t.mode = s.mode := by
  obtain ⟨_, rfl⟩ := transmit_eq_next.mp h
  split
  · rw [he, exchange_mode]
  · exact exchange_mode f s

/-- No transmission but a reset command changes the modes. -/
theorem transmission_mode {i : Instr} {s t : State} (hi : isTransmission i = true) (hr : ¬IsResetCommand i)
    (h : exec i s = .next t) : t.mode = s.mode := by
  cases i with
  | instr w => exact transmit_mode (instrEffect_mode w) h
  | data v => exact transmit_mode (dataEffect_mode v) h
  | tecr d => exact transmit_mode (tecrEffect_mode _ d) h
  | cmdHreset x => exact absurd ⟨x, .inl rfl⟩ hr
  | cmdSreset x => exact absurd ⟨x, .inr rfl⟩ hr
  | cmdStartDownload => exact transmit_mode startDownloadEffect_mode h
  | cmdEndDownload => exact transmit_mode endDownloadEffect_mode h
  | cmdBrk n m => exact transmit_mode (e := brkEffect n m) (fun _ => rfl) h
  | _ => first
    | (simp [isTransmission, encode] at hi; done)
    | exact transmit_mode (e := fun u => u) (fun _ => rfl) h

theorem LineChange.mode_eq {s t : State} (h : LineChange s t) : t.mode = s.mode := by
  obtain ⟨x, rfl | ⟨_, rfl | rfl⟩⟩ := h <;> rfl

/-! ### The step -/

/-- A step that does not reset enters debug mode only where it is enabled, and leaves it only by a delivered `rfi`. -/
theorem debugGuarded_step {s t : State} (hr : ¬ResetNext s) (h : step s = .next t) :
    DebugGuarded (s.mode.dm = true → DeliveredRfi s) s t := by
  rcases step_next h with hcpu | ⟨rest, _, hcpu⟩ | ⟨f, rest, i, hin, _, hdec, hexec⟩ | hline | ⟨k, rest, hin, rfl⟩
  · exact debugGuarded_cpuStep hcpu
  · obtain ⟨hdme, hin, hout⟩ := debugGuarded_cpuStep (s := { s with ext.inputs := rest }) hcpu
    exact ⟨hdme, hin, hout⟩
  · have hnoReset : ¬IsResetCommand i := fun hi => hr (resetNext_of_command hin hdec hi)
    exact .of_eq
      (transmission_mode (s := { s with ext.inputs := rest }) (decode_frame_transmission hdec) hnoReset hexec)
  · exact .of_eq hline.mode_eq
  · exact absurd (by simp [ResetNext, hin]) hr

/-- Settles O13: every entry is guarded by DME, and `rfi` alone leaves debug mode. -/
theorem debugModeEntryAndExitAreGuarded : Obligations.DebugModeEntryAndExitAreGuarded := by
  refine ⟨fun s t hdme hdm hr h => ?_, fun s t hdm hr h ht => ?_⟩
  · have hentered := (debugGuarded_step hr h).entered
    simpa [hdm, hdme] using hentered
  · have hleft := (debugGuarded_step hr h).left ht
    simpa [hdm, DeliveredRfi] using hleft

/-! ### The check stop state (R455, R491, U12) -/

/-- In the check stop state the CPU makes no step. -/
theorem cpuStep_checkStop {s : State} (h : s.cpu.checkStop = true) : cpuStep s = .fault .checkStopped := by
  simp [cpuStep, h]

/-- A transmission that is no reset command leaves the CPU alone outside debug mode. -/
theorem transmission_cpu_outside {i : Instr} {s t : State} (hi : isTransmission i = true) (hr : ¬IsResetCommand i)
    (hdm : s.mode.dm = false) (h : exec i s = .next t) : t.cpu = s.cpu := by
  obtain ⟨f, e, he, hexec⟩ := transmission_effect_outside hi hr
  rw [hexec] at h
  obtain ⟨_, rfl⟩ := transmit_eq_next.mp h
  split
  · obtain ⟨hcpu, _⟩ := he (exchange f s) (by simpa using hdm)
    exact hcpu.trans (exchange_cpu f s)
  · exact exchange_cpu f s

/-- Outside debug mode a stopped CPU and the memory are left alone by everything but a reset. -/
theorem step_checkStop_frame {s t : State} (hstop : s.cpu.checkStop = true) (hdm : s.mode.dm = false)
    (hr : ¬ResetNext s) (h : step s = .next t) : t.cpu = s.cpu ∧ t.mem = s.mem := by
  have hstuck : ∀ u : State, u.cpu.checkStop = true → cpuStep u ≠ .next t := fun u hu hnext => by
    rw [cpuStep_checkStop hu] at hnext
    cases hnext
  rcases step_next h with hcpu | ⟨rest, _, hcpu⟩ | ⟨f, rest, i, hin, _, hdec, hexec⟩ | ⟨x, rfl | ⟨hin, _⟩⟩ |
    ⟨k, rest, hin, rfl⟩
  · exact absurd hcpu (hstuck s hstop)
  · exact absurd hcpu (hstuck { s with ext.inputs := rest } hstop)
  · have hi := decode_frame_transmission hdec
    have hnoReset : ¬IsResetCommand i := fun hc => hr (resetNext_of_command hin hdec hc)
    exact ⟨transmission_cpu_outside (s := { s with ext.inputs := rest }) hi hnoReset hdm hexec,
      exec_transmission_mem (s := { s with ext.inputs := rest }) hi hexec⟩
  · exact ⟨rfl, rfl⟩
  · rw [hdm] at hin; cases hin
  · exact absurd (by simp [ResetNext, hin]) hr

/-- Settles O39: the CPU makes no step, and nothing else reaches it. -/
theorem checkStopIsStuck : Obligations.CheckStopIsStuck := by
  refine ⟨fun s hstop hin => ?_, fun s t hstop hdm hr h => ?_⟩
  · simp [step, stepMachine, hin, cpuStep_checkStop hstop]
  · obtain ⟨hcpu, hmem⟩ := step_checkStop_frame hstop hdm hr h
    have hgprs : SameGprs s t := readGpr_congr (by rw [hcpu])
    have hmemory : SameMemory s t := fun a => by rw [hmem]
    rw [hcpu]
    exact ⟨hstop, hgprs, rfl, by simp [SameExceptionRegs, hcpu], hmemory⟩

end Sys2Proof.Machine
end

section
/-! SUPPORT and PROOFS. Requests and interrupts (60_exceptions.md R441, R445 to R448): a step outside debug mode records
no other causes than those of the events that wait and of the CPU's own; an event that waits alone is taken. -/

namespace Sys2Proof.Machine

/-! ### The causes a step can record -/

/-- Two events have two bits. -/
theorem eventBit_injective : Function.Injective eventBit := by
  intro a b
  cases a <;> cases b <;> simp [eventBit]

/-- From `s` to `t` the cause bits of these events alone are set. -/
def NewCauses (new : Event → Prop) (s t : State) : Prop :=
  ∀ k, t.dev.ecr.getMsbD k = true → s.dev.ecr.getMsbD k = true ∨ ∃ e, new e ∧ k = eventBit e

/-- An event that no request or interrupt line makes. -/
abbrev OwnCause (e : Event) : Prop := e ∉ [.nmi, .extInt, .decrementer, .extBreak, .devPortInt]

section
variable {new : Event → Prop} {s t u : State}

theorem NewCauses.of_ecr (h : t.dev.ecr = s.dev.ecr) : NewCauses new s t := fun _ hk => .inl (h ▸ hk)

theorem NewCauses.of_dev (h : t.dev = s.dev) : NewCauses new s t := .of_ecr (by rw [h])

theorem NewCauses.trans (h : NewCauses new s t) (h' : NewCauses new t u) : NewCauses new s u :=
  fun k hk => (h' k hk).elim (h k) .inr

/-- What leaves the ECR alone, before. -/
theorem NewCauses.after (h : NewCauses new t u) (ht : t.dev.ecr = s.dev.ecr) : NewCauses new s u :=
  (NewCauses.of_ecr ht).trans h

/-- What leaves the ECR alone, after. -/
theorem NewCauses.quiet (h : NewCauses new s t) (hu : u.dev.ecr = t.dev.ecr) : NewCauses new s u :=
  h.trans (.of_ecr hu)

theorem NewCauses.mono {new' : Event → Prop} (h : NewCauses new s t) (hnew : ∀ e, new e → new' e) :
    NewCauses new' s t :=
  fun k hk => (h k hk).imp_right fun ⟨e, he, hbit⟩ => ⟨e, hnew e he, hbit⟩

/-- Recording one event. -/
theorem NewCauses.of_event {e : Event} (he : new e) (h : t.dev.ecr = s.dev.ecr ||| eventMask e) : NewCauses new s t :=
  fun k hk => by
    rw [h, getMsbD_or_eventMask, Bool.or_eq_true, decide_eq_true_eq] at hk
    exact hk.imp_right fun hbit => ⟨e, he, hbit⟩

theorem newCauses_raise {e : Event} (he : new e) (resume : Word) (s : State) : NewCauses new s (raise e resume s) :=
  .of_event he (by rw [raise_dev])

theorem newCauses_programException (s : State) : NewCauses OwnCause s (programException s) :=
  newCauses_raise (by decide) _ s

theorem newCauses_raiseMachineCheck (async : Bool) (resume : Word) (s : State) :
    NewCauses OwnCause s (raiseMachineCheck async resume s) := by
  have hown : OwnCause (machineCheckEvent s) := by
    rcases machineCheckEvent_cases s with h | h <;> rw [h] <;> decide
  exact .of_event hown (by rw [raiseMachineCheck_records])

theorem newCauses_raiseCpuExc (e : CpuExc) (s : State) : NewCauses OwnCause s (raiseCpuExc e s) := by
  have hsave : (saveFaultAddress e s).dev.ecr = s.dev.ecr := by rw [saveFaultAddress_dev]
  refine .after ?_ hsave
  cases e with
  | machineCheck => exact newCauses_raiseMachineCheck _ _ _
  | _ => exact newCauses_raise (by decide) _ _

/-! ### The instructions of the CPU -/

theorem newCauses_mfspr {n : Spr} {rd : Reg} (h : exec (.mfspr rd n) s = .next t) : NewCauses OwnCause s t := by
  by_cases hn : n = .dpdr
  · subst hn
    simp only [Instr.mfspr, exec, execMfsprDpdr] at h
    split at h
    · cases h; exact newCauses_programException s
    · split at h <;> cases h <;> exact .of_dev (by simp)
  · obtain ⟨v, k, he⟩ := exec_mfspr hn rd s
    rw [he] at h
    split at h <;> cases h
    · exact newCauses_programException s
    · have hread : NewCauses OwnCause s (if n = .ecr then clearEcrOnRead s else s) := by
        split
        · intro b hb
          rw [clearEcrOnRead_ecr] at hb
          split at hb
          · simp at hb
          · exact .inl hb
        · exact .of_dev rfl
      exact hread.quiet (by simp)

theorem sprWritten_ecr (n : Spr) (v : Word) (d : Dev) : (sprWritten n v d).ecr = d.ecr := by
  cases n <;> rfl

theorem newCauses_mtspr {n : Spr} {rs : Reg} (h : exec (.mtspr rs n) s = .next t) : NewCauses OwnCause s t := by
  rw [exec_mtspr] at h
  split at h
  · cases h; exact newCauses_programException s
  · split at h <;> cases h
    · exact .of_dev (by simp)
    · exact .of_ecr (by simp [sprWritten_ecr])

theorem newCauses_mtmsr {rs : Reg} (h : exec (.mtmsr rs) s = .next t) : NewCauses OwnCause s t := by
  simp only [exec, execMtmsr] at h
  split at h
  · cases h; exact newCauses_programException s
  · split at h <;> cases h
    exact .of_dev (by simp)

theorem newCauses_rfi (h : exec .rfi s = .next t) : NewCauses OwnCause s t := by
  simp only [exec, execRfi] at h
  split at h <;> cases h
  · exact newCauses_programException s
  · exact .of_dev (returnFromException_dev s)

/-- A row of the table that a CPU word decodes to. -/
theorem newCauses_exec_word {w : Word} {j : Instr} (hj : decodeWord w = .ok j) (h : exec j s = .next t) :
    NewCauses OwnCause s t := by
  rcases decodeWord_cases hj with ⟨n, r, rfl⟩ | ⟨n, r, rfl⟩ | ⟨r, rfl⟩ | rfl | rfl | rfl | ⟨rs, d, ra, rfl⟩
  · exact newCauses_mfspr h
  · exact newCauses_mtspr h
  · exact newCauses_mtmsr h
  · cases h; exact .of_dev (by simp)
  · exact newCauses_rfi h
  · cases h; exact .of_dev (by simp)
  · cases h; exact .of_dev (by simp)

theorem newCauses_moveException {draw : State → State} (hdraw : ∀ u, (draw u).dev = u.dev) (s : State) :
    NewCauses OwnCause s (moveException draw s) :=
  .of_event (e := .program) (by decide) (by rw [moveException_dev hdraw])

/-- What the CPU executes for a word. -/
theorem newCauses_execCpu {w : Word} {i : CpuInstr} (hi : decodeCpu w = some i) (h : execCpu i s = .next t) :
    NewCauses OwnCause s t := by
  rcases execCpu_next h with ⟨j, rfl, hj⟩ | ⟨rd, n, rfl, rfl⟩ | ⟨n, rs, rfl, rfl⟩
  · exact newCauses_exec_word (decodeWord_of_decodeCpu hi) hj
  · split
    · exact newCauses_moveException (draw := fun u => writeGpr rd (freeWord 0 u) u) (fun _ => rfl) s
    · exact .of_dev (by simp)
  · split
    · exact newCauses_moveException (drawSave_dev n) s
    · exact .of_dev (by simp)

/-! ### The CPU's step outside debug mode -/

theorem settleIfm_ecr (i : Option CpuInstr) (s t : State) : (settleIfm i s t).dev.ecr = t.dev.ecr := by
  unfold settleIfm; split <;> rfl

theorem passBreak_ecr (s : State) : (passBreak s).dev.ecr = s.dev.ecr := by
  unfold passBreak; split <;> rfl

theorem newCauses_takeInstrBreak (i : Option CpuInstr) (s : State) : NewCauses OwnCause s (takeInstrBreak i s) :=
  .after (newCauses_raise (by decide) _ _) (settleIfm_ecr i s _)

theorem newCauses_raiseAfter (brk : Option Word) (trace : Bool) (t : State) :
    NewCauses OwnCause t (raiseAfter brk trace t) := by
  cases brk <;> cases trace
  case none.false => exact .of_dev rfl
  case none.true => exact newCauses_raise (by decide) _ t
  case some.false => exact .after (newCauses_raise (by decide) _ _) rfl
  case some.true a =>
    intro k hk
    rw [raiseAfter, raiseAll_dev] at hk
    simp only [List.foldl_cons, List.foldl_nil, getMsbD_or_eventMask, Bool.or_eq_true, decide_eq_true_eq,
      or_assoc] at hk
    rcases hk with hk | hk | hk
    · exact .inl hk
    · exact .inr ⟨.loadStoreBreak, by decide, hk⟩
    · exact .inr ⟨.trace, by decide, hk⟩

theorem newCauses_retire (i : CpuInstr) (s t : State) : NewCauses OwnCause t (retire i s t) := by
  unfold retire
  split
  · exact .of_dev rfl
  · exact .after (newCauses_raiseAfter _ _ (reportRetired i s t (watched s t))) rfl

/-- The step of a fetched instruction records the CPU's own events alone. -/
theorem newCauses_runFetched {i : Option CpuInstr} (hi : ∀ j, i = some j → ∃ w, decodeCpu w = some j)
    (h : runFetched i s = .next t) : NewCauses OwnCause s t := by
  rcases runFetched_next h with ⟨_, rfl⟩ | ⟨_, e, _, rfl⟩ | ⟨_, _, j, u, rfl, hu, rfl⟩
  · exact (newCauses_takeInstrBreak i s).quiet (by rw [finish_dev])
  · have hexc : NewCauses OwnCause s (raiseCpuExc e { passBreak s with ext.cpuExc := none }) :=
      .after (newCauses_raiseCpuExc e _) (passBreak_ecr s)
    exact hexc.quiet (by rw [finish_dev, settleIfm_ecr])
  · obtain ⟨w, hw⟩ := hi j rfl
    have hexec : NewCauses OwnCause s u := .after (newCauses_execCpu hw hu) (passBreak_ecr s)
    exact ((hexec.quiet (settleIfm_ecr _ s u)).trans (newCauses_retire j s _)).quiet (by rw [finish_dev])

/-- An asynchronous event records its own cause bit, or that of the machine check it is. -/
theorem newCauses_takeAsync (e : Event) (s : State) : NewCauses (fun x => x = e ∨ OwnCause x) s (takeAsync e s) := by
  have hraise : ∀ u, NewCauses (fun x => x = e ∨ OwnCause x) u (raiseAsync e u) := fun u => by
    unfold raiseAsync
    split
    · have hsave : (saveFaultAddress .machineCheck u).dev.ecr = u.dev.ecr := rfl
      exact .after ((newCauses_raiseMachineCheck _ _ _).mono fun _ => .inr) hsave
    · exact newCauses_raise (.inl rfl) _ u
  have haccepted : NewCauses (fun x => x = e ∨ OwnCause x) s
      (raiseAsync e { acceptAsync e s with trace.pins := WatchPins.quiet }) := .after (hraise _) rfl
  exact haccepted.quiet rfl

/-- The CPU's step outside debug mode records events that wait, and the CPU's own (R441). -/
theorem newCauses_runStep (h : runStep s = .next t) :
    NewCauses (fun e => e ∈ pendingEvents s ∨ OwnCause e) s t := by
  rcases runStep_next h with ⟨e, es, hp, rfl⟩ | ⟨_, w, _, hrun⟩ | ⟨_, _, _, hrun⟩
  · refine (newCauses_takeAsync (pickEvent e es) s).mono fun x hx => hx.imp_left ?_
    rintro rfl
    exact hp ▸ pickEvent_mem e es
  · have hown : NewCauses OwnCause (fetched s) t := newCauses_runFetched (fun _ hj => ⟨w, hj⟩) hrun
    exact (hown.after (by rw [fetched_dev])).mono fun _ => .inr
  · have hown : NewCauses OwnCause (fetched s) t := newCauses_runFetched (fun _ hj => by cases hj) hrun
    exact (hown.after (by rw [fetched_dev])).mono fun _ => .inr

/-- With no input left a step outside debug mode is that of the CPU. -/
theorem runStep_of_step (hin : s.ext.inputs = []) (hdm : s.mode.dm = false) (h : step s = .next t) :
    runStep s = .next t := by
  have hcpu : cpuStep s = .next t := by rwa [step, stepMachine, hin] at h
  obtain ⟨_, _, ⟨hdm', _⟩ | ⟨_, hrun⟩⟩ := cpuStep_next hcpu
  · rw [hdm] at hdm'; cases hdm'
  · exact hrun

/-- The cause bit of a request or an interrupt that is not recognised is not set. -/
theorem step_notRecognised {e : Event} (hin : s.ext.inputs = []) (hdm : s.mode.dm = false)
    (he : ¬OwnCause e) (hp : e ∉ pendingEvents s) (h : step s = .next t)
    (ht : t.dev.ecr.getMsbD (eventBit e) = true) : s.dev.ecr.getMsbD (eventBit e) = true := by
  refine (newCauses_runStep (runStep_of_step hin hdm h) (eventBit e) ht).resolve_right ?_
  rintro ⟨x, hx, hbits⟩
  rw [← eventBit_injective hbits] at hx
  exact hx.elim hp he

end

/-! ### What waits (R441, R446 to R448) -/

theorem extBreak_not_pending {s : State} (h : s.cpu.msr.ri = false) : .extBreak ∉ pendingEvents s := by
  rcases machineCheckEvent_cases s with hm | hm <;> simp [pendingEvents, h, hm]

theorem extInt_not_pending {s : State} (h : s.cpu.msr.ee = false) : .extInt ∉ pendingEvents s := by
  rcases machineCheckEvent_cases s with hm | hm <;> simp [pendingEvents, h, hm]

theorem decrementer_not_pending {s : State} (h : s.cpu.msr.ee = false) : .decrementer ∉ pendingEvents s := by
  rcases machineCheckEvent_cases s with hm | hm <;> simp [pendingEvents, h, hm]

/-- A request or an interrupt that waits alone is taken by the next step. -/
theorem step_takesRequest {s : State} {e : Event} (hin : s.ext.inputs = []) (hrun : s.cpu.checkStop = false)
    (hdm : s.mode.dm = false) (hheld : (s.port.tecr.nmbrk && s.nmbrkTaken) = false) (hp : pendingEvents s = [e])
    (he : e ∈ [.devPortInt, .extBreak, .nmi, .extInt, .decrementer]) :
    step s = .next (takeAsync e s) ∧ (takeAsync e s).dev = { s.dev with ecr := s.dev.ecr ||| eventMask e } ∧
      (takeAsync e s).cpu.srr0 = s.cpu.pc ∧ SameGprs s (takeAsync e s) ∧ SameMemory s (takeAsync e s) ∧
      (takeAsync e s).mode.dm = (s.dev.der.getMsbD (eventBit e) && s.mode.dme) := by
  obtain ⟨hdev, hsrr0, hdebug⟩ := takeAsync_event hdm he
  exact ⟨step_takesAsync hin hrun hdm hheld hp, hdev, hsrr0, sameGprs_takeAsync e s, sameMemory_takeAsync e s, hdebug⟩

/-- Settles O40: each request is the only pending event, and with RI = 0 the external breakpoint is none. -/
theorem breakRequestsTaken : Obligations.BreakRequestsTaken := by
  intro s hin hrun hdm hnmi hext hdecr
  refine ⟨fun hmc hnmbrk htaken hbrk => ?_, fun hmc hnmbrk hbrk hri => ?_, fun hnmbrk hri hclear t h => ?_⟩
  · have hp : pendingEvents s = [.devPortInt] := by
      simp [pendingEvents, hnmi, hmc, hext, hdecr, hbrk, hnmbrk]
    exact ⟨_, step_takesRequest hin hrun hdm (by simp [htaken]) hp (by simp)⟩
  · have hp : pendingEvents s = [.extBreak] := by
      simp [pendingEvents, hnmi, hmc, hext, hdecr, hbrk, hri, hnmbrk]
    exact ⟨_, step_takesRequest hin hrun hdm (by simp [hnmbrk]) hp (by simp)⟩
  · have hset : t.dev.ecr.getMsbD 30 = true → s.dev.ecr.getMsbD 30 = true :=
      step_notRecognised (e := .extBreak) hin hdm (by decide) (extBreak_not_pending hri) h
    rw [hclear] at hset
    simpa using hset

/-- In debug mode an NMI is recorded at once (R460). -/
theorem step_recordsNmi {s : State} {rest : List Input} (hin : s.ext.inputs = .nmi :: rest) (hdm : s.mode.dm = true) :
    step s = .next (recordInDebug .nmi { s with ext.inputs := rest }) := by
  simp [step, stepMachine, hin, assertNmi, hdm]

/-- Settles O41: each interrupt is the only pending event, and with EE = 0 the maskable ones are none. -/
theorem interruptsRecognised : Obligations.InterruptsRecognised := by
  intro s rest
  refine ⟨fun hin hrun hdm hnmbrk hbrk => ?_, fun hin hdm => ?_⟩
  · have hheld : (s.port.tecr.nmbrk && s.nmbrkTaken) = false := by simp [hnmbrk]
    refine ⟨fun hnmi hmc hlines => ?_, fun hnmi hmc hext hdecr hee => ?_, fun hnmi hmc hext hdecr hee => ?_,
      fun hee t h => ⟨?_, ?_⟩⟩
    · have hp : pendingEvents s = [.nmi] := by
        obtain ⟨hext, hdecr⟩ := Bool.or_eq_false_iff.mp hlines
        simp [pendingEvents, hnmi, hmc, hext, hdecr, hbrk, hnmbrk]
      obtain ⟨hstep, hdev, hsrr0, hgprs, hmemory, hdebug⟩ := step_takesRequest hin hrun hdm hheld hp (by simp)
      refine ⟨_, hstep, hdev, hsrr0, hgprs, hmemory, hdebug, ?_⟩
      rw [takeAsync_ext]
      exact Bool.and_false _
    · have hp : pendingEvents s = [.extInt] := by
        simp [pendingEvents, hnmi, hmc, hext, hdecr, hbrk, hnmbrk, hee]
      exact ⟨_, step_takesRequest hin hrun hdm hheld hp (by simp)⟩
    · have hp : pendingEvents s = [.decrementer] := by
        simp [pendingEvents, hnmi, hmc, hext, hdecr, hbrk, hnmbrk, hee]
      exact ⟨_, step_takesRequest hin hrun hdm hheld hp (by simp)⟩
    · exact step_notRecognised (e := .extInt) hin hdm (by decide) (extInt_not_pending hee) h
    · exact step_notRecognised (e := .decrementer) hin hdm (by decide) (decrementer_not_pending hee) h
  · exact ⟨_, step_recordsNmi hin hdm, rfl, rfl, rfl, rfl, rfl, rfl⟩

end Sys2Proof.Machine
end

section
/-! SUPPORT and PROOFS. Exceptions of the CPU that come as inputs, and the trace event (60_exceptions.md R441, R442,
R444, R450, R455): the step in which no instruction breakpoint can occur, and what follows the fetch there. -/

namespace Sys2Proof.Machine

/-! ### Fetches without a breakpoint (R243, R277) -/

/-- With no direct breakpoint and no active counter the instruction is not stopped, IFM is settled, and only free values
are set aside. -/
theorem noBreak_of_inactive {s : State} (ha : s.dev.counta.cntc = 0#2) (hb : s.dev.countb.cntc = 0#2)
    (hbrk : instrBreakDirect s = false) (i : Option CpuInstr) :
    instrBreakTaken i s = false ∧ unpredictableBreak i s = false ∧ passBreak s = spend breakDraws s := by
  have hdirect : directBreak s = false := by rw [directBreak, hbrk, Bool.and_false]
  have hcount : counterInstrBreak s = false :=
    counterInstrBreak_eq_false (.inl (counts_inactive ha _ _ _)) (.inl (counts_inactive hb _ _ _))
  have hpre : unpredictableBreak i s = false := by simp [unpredictableBreak, hdirect, hcount]
  exact ⟨by simp [instrBreakTaken, hpre, hdirect, hcount], hpre, passBreak_noMatch hdirect⟩

/-! ### Exceptions of the CPU (R441, R442, R455) -/

/-- The event that an exception of the CPU is. -/
def takenEvent (e : CpuExc) (s : State) : Event :=
  match e with
  | .machineCheck => machineCheckEvent s
  | .itlbError | .dtlbError | .alignment | .program | .fpUnavail | .fpAssist | .sysCall | .softEmul => cpuExcEvent e

@[simp] theorem raiseCpuExc_gpr (e : CpuExc) (s : State) : (raiseCpuExc e s).cpu.gpr = s.cpu.gpr := by
  cases e <;> simp [raiseCpuExc, saveFaultAddress]

@[simp] theorem raiseCpuExc_ext (e : CpuExc) (s : State) : (raiseCpuExc e s).ext = s.ext := by
  cases e <;> simp [raiseCpuExc, saveFaultAddress]

@[simp] theorem raiseCpuExc_dme (e : CpuExc) (s : State) : (raiseCpuExc e s).mode.dme = s.mode.dme := by
  cases e <;> simp [raiseCpuExc, saveFaultAddress]

/-- Only the load/store type exceptions reach DAR and DSISR (R442, log 33). -/
theorem raiseCpuExc_keeps_dar {e : CpuExc} (ha : e ≠ .alignment) (hd : e ≠ .dtlbError) (hm : e ≠ .machineCheck)
    (s : State) : (raiseCpuExc e s).cpu.dar = s.cpu.dar ∧ (raiseCpuExc e s).cpu.dsisr = s.cpu.dsisr := by
  cases e with
  | alignment => exact absurd rfl ha
  | dtlbError => exact absurd rfl hd
  | machineCheck => exact absurd rfl hm
  | _ => exact ⟨raise_dar _ _ s, raise_dsisr _ _ s⟩

/-- An exception other than a machine check is its event, raised at the pc. -/
theorem raiseCpuExc_event {e : CpuExc} (h : e ≠ .machineCheck) (s : State) :
    raiseCpuExc e s = raise (cpuExcEvent e) s.cpu.pc (saveFaultAddress e s) := by
  cases e with
  | machineCheck => exact absurd rfl h
  | _ => rfl

/-- None of these events is the check stop. -/
theorem eventBit_cpuExcEvent_ne (e : CpuExc) : eventBit (cpuExcEvent e) ≠ 2 := by
  cases e <;> decide

/-- Outside debug mode an exception of the CPU sets its cause bit and goes to debug mode, to its handler or, a machine
check with MSR.ME = 0, to the check stop state. -/
theorem raiseCpuExc_outside {s : State} (hdm : s.mode.dm = false) (hrun : s.cpu.checkStop = false) (e : CpuExc) :
    (raiseCpuExc e s).dev = { s.dev with ecr := s.dev.ecr ||| eventMask (takenEvent e s) } ∧
      (raiseCpuExc e s).mode.dm = (s.dev.der.getMsbD (eventBit (takenEvent e s)) && s.mode.dme) ∧
      (raiseCpuExc e s).cpu.checkStop = (decide (eventBit (takenEvent e s) = 2) &&
        !(s.dev.der.getMsbD (eventBit (takenEvent e s)) && s.mode.dme)) ∧
      (raiseCpuExc e s).port = s.port := by
  by_cases he : e = .machineCheck
  · subst he
    obtain ⟨hdebug, hstop, hport⟩ :=
      raiseMachineCheck_outside (s := saveFaultAddress .machineCheck s) hdm hrun false s.cpu.pc
    have hbit : (!s.cpu.msr.me) = decide (eventBit (machineCheckEvent s) = 2) := by
      rw [eventBit_machineCheckEvent]
      cases s.cpu.msr.me <;> rfl
    exact ⟨raiseMachineCheck_records _ _ _, hdebug, hstop.trans (congrArg (· && !machineCheckEnters s) hbit), hport⟩
  · obtain ⟨a, d, k, hsave⟩ := saveFaultAddress_frame e s
    have htaken : takenEvent e s = cpuExcEvent e := by
      cases e with
      | machineCheck => exact absurd rfl he
      | _ => rfl
    have hsaved : (saveFaultAddress e s).mode.dm = false := by rw [hsave]; exact hdm
    obtain ⟨_, hport, hdebug⟩ := raise_outside hsaved (cpuExcEvent e) s.cpu.pc
    rw [raiseCpuExc_event he, htaken, raise_dev, hdebug, hport, raise_checkStop, eventEnabled_eq_getMsbD, hsave]
    exact ⟨rfl, rfl, by simp [hrun, eventBit_cpuExcEvent_ne], rfl⟩

/-- The state in which an exception of the CPU is raised in place of the fetched instruction: it is used up. -/
def atCpuExc (s : State) : State := { spend breakDraws (fetched s) with ext.cpuExc := none }

/-- The step in which an exception of the CPU is taken, whatever stands at the pc. -/
theorem step_takesCpuExc {s : State} {e : CpuExc} (hin : s.ext.inputs = []) (hrun : s.cpu.checkStop = false)
    (hdm : s.mode.dm = false) (hheld : (s.port.tecr.nmbrk && s.nmbrkTaken) = false) (hp : pendingEvents s = [])
    (hisct : s.trace.isct ≠ 0b100#3) (hexc : s.ext.cpuExc = some e) (ha : s.dev.counta.cntc = 0#2)
    (hb : s.dev.countb.cntc = 0#2) (hbrk : instrBreakDirect (fetched s) = false) :
    step s = .next (finish (fetched s) (raiseCpuExc e (atCpuExc s))) := by
  have hfetched : ∀ i, runFetched i (fetched s) = .next (finish (fetched s) (raiseCpuExc e (atCpuExc s))) := fun i => by
    obtain ⟨hnot, hpre, hpass⟩ := noBreak_of_inactive (s := fetched s) ha hb hbrk i
    simp [runFetched, hnot, hexc, settleIfm, hpre, hpass, atCpuExc]
  have hstep : step s = runStep s := by simp [step, stepMachine, hin, cpuStep, hrun, waitsForTool, hdm]
  rw [hstep, runStep, hheld, hp, hexc]
  cases memReadWord s.cpu.pc s.mem <;> simp [hisct, hfetched]

/-- Settles O42: the exception is raised in place of the instruction, which is not executed. -/
theorem cpuExceptionsAsInputs : Obligations.CpuExceptionsAsInputs := by
  intro s e hin hrun hdm hheld hp hisct hexc ha hb hbrk
  obtain ⟨hdev, hdebug, hstop, hport⟩ := raiseCpuExc_outside (s := atCpuExc s) hdm hrun e
  have hgprs : SameGprs s (finish (fetched s) (raiseCpuExc e (atCpuExc s))) := readGpr_congr (by simp [atCpuExc])
  have hmemory : SameMemory s (finish (fetched s) (raiseCpuExc e (atCpuExc s))) := fun a => by simp [atCpuExc]
  refine ⟨_, step_takesCpuExc hin hrun hdm hheld hp hisct hexc ha hb hbrk, by simp [atCpuExc], hgprs, hmemory, ?_, ?_,
    fun hal hdt hmc => ?_, fun n hn => ?_⟩
  · rw [finish_port, hport]; rfl
  · rw [finish_mode, raiseCpuExc_dme]; rfl
  · rw [finish_dar, finish_dsisr]
    exact raiseCpuExc_keeps_dar hal hdt hmc (atCpuExc s)
  · have hbit : n = eventBit (takenEvent e (atCpuExc s)) := by
      rw [hn]
      cases e with
      | machineCheck => exact (eventBit_machineCheckEvent s).symm
      | _ => rfl
    rw [hbit, ← eventMask_eq_shift, finish_dev, finish_mode, finish_checkStop]
    exact ⟨hdev, hdebug, hstop⟩

/-! ### The trace event (R444) -/

/-- In debug mode after taking events: it was entered before, or one of them is enabled and debug mode is (R450). -/
theorem raiseAll_dm (e : Event) (es : List Event) (resume : Word) (s : State) :
    (raiseAll e es resume s).mode.dm =
      (s.mode.dm || (s.mode.dme && (e :: es).any fun x => eventEnabled x s)) := by
  rcases raiseAll_cases e es resume s with ⟨hdm, b, p, h⟩ | ⟨_, hdme, hany, e', a, b, z, h⟩ | ⟨hdm, hno, e', a, b, z, h⟩
  · simp [h, hdm]
  · rw [hdme, hany]
    simp [h]
  · rcases hno with hno | hno <;> rw [hno] <;> simp [h, hdm]

/-- With the trace event enabled and debug mode enabled the CPU is then in debug mode. -/
theorem raiseAfter_trace_enters {t : State} (h : t.dev.der.getMsbD 14 = true) (hdme : t.mode.dme = true)
    (brk : Option Word) : (raiseAfter brk true t).mode.dm = true := by
  have hon : ∀ u : State, u.dev.der = t.dev.der → eventEnabled .trace u = true := fun u hu => by
    rw [eventEnabled_eq_getMsbD, hu]
    exact h
  cases brk with
  | none => simp [raiseAfter, raise, raiseAll_dm, hdme, hon]
  | some a => simp [raiseAfter, raiseAll_dm, hdme, hon]

/-- The trace bit of the ECR after a retirement is set exactly by the trace event. -/
theorem afterCauses_trace (brk : Option Word) (trace : Bool) : (afterCauses brk trace).getMsbD 14 = trace := by
  rw [afterCauses]
  generalize brk.isSome = b
  revert b trace
  decide

/-- In single-step mode the trace event follows every instruction but `rfi`. -/
theorem traceFollows_step {i : CpuInstr} {s : State} (hse : s.cpu.msr.se = true) (hi : i ≠ .table .rfi) (t : State) :
    traceFollows i s t = true := by
  simp [traceFollows, traced, traceMode, hse, hi]

/-- The trace bit of the ECR and debug mode after the retirement of a completed instruction. -/
theorem retire_trace {i : CpuInstr} {s t : State} (h : t.cpu.flight.excepted = false) :
    (retire i s t).dev.ecr.getMsbD 14 = (t.dev.ecr.getMsbD 14 || traceFollows i s t) := by
  rw [retire_dev h, BitVec.getMsbD_or, afterCauses_trace]

theorem retire_trace_enters {i : CpuInstr} {s t : State} (h : t.cpu.flight.excepted = false)
    (htrace : traceFollows i s t = true) (hder : t.dev.der.getMsbD 14 = true) (hdme : t.mode.dme = true) :
    (retire i s t).mode.dm = true := by
  rw [retire_completed h, htrace]
  exact raiseAfter_trace_enters (t := reportRetired i s t (watched s t)) hder hdme _

/-- Settles O43: the instruction is executed and retires with the trace event exactly in single-step mode. -/
theorem singleStepTraceEvent : Obligations.SingleStepTraceEvent := by
  refine ⟨by decide, fun s u w i hf hi ha hb hbrk hu hexc => ?_⟩
  obtain ⟨hnot, hpre, _⟩ := noBreak_of_inactive (s := fetched s) ha hb hbrk (some i)
  have hdme : u.mode.dme = s.mode.dme := by
    simpa using (debugGuarded_execCpu (leaves := True) hf.decodes (fun _ => trivial) hu).dme
  refine ⟨_, hf.step_executes hnot hpre hu, sameGprs_retired i _ u, sameMemory_retired i _ u, fun hse => ?_,
    fun hse hbe => ?_⟩
  · have htrace : traceFollows i (fetched s) u = true := traceFollows_step (s := fetched s) hse hi u
    rw [finish_dev, finish_mode, retire_trace hexc, htrace]
    exact ⟨Bool.or_true _, fun hder hen => retire_trace_enters hexc htrace hder (hdme.trans hen)⟩
  · have htrace : traceFollows i (fetched s) u = false := traceFollows_off (s := fetched s) hse hbe i u
    rw [finish_dev, retire_trace hexc, htrace, Bool.or_false]

end Sys2Proof.Machine
end

section
/-! PROOFS. The machine at reset meets the invariants that every step keeps (70_reset_and_hazards.md R521, R522): with
the lemmas about steps they hold in every state reached from it. -/

namespace Sys2Proof.Machine

/-- No byte is stored at reset, so no two are out of order (log 8). -/
theorem memoryCanonical_reset : MemoryCanonical State.reset := by
  have hmem : State.reset.mem = [] := rfl
  rw [MemoryCanonical, hmem]
  rfl

/-- The reset vector is a word address (log 2). -/
theorem pcAligned_reset : PcAligned State.reset := by
  have hvec : Config.vecReset.extractLsb' 0 2 = 0#2 := by decide
  exact hvec

/-- A reset with DSCK low leaves the CPU outside debug mode, which is not enabled (R42, R521). -/
theorem outsideConsistently_reset : OutsideConsistently State.reset where
  outside := rfl
  wait := rfl
  dpir := rfl
  noCause hdme := absurd hdme Bool.false_ne_true

/-- The only bits set in the control registers at reset are those of DER, which enable defined causes (R36, R521). -/
theorem reservedClear_reset : ReservedClear State.reset where
  ecr := BitVec.zero_and
  der := by
    have hder : 0x2002000F#32 &&& 0x8C18ABF0#32 = 0#32 := by decide
    exact hder
  ictrl := BitVec.zero_and
  lctrl1 := BitVec.zero_and
  lctrl2 := BitVec.zero_and
  msr := BitVec.zero_and

/-- Settles O11: each invariant by its own lemma. -/
theorem resetMeetsInvariants : Obligations.ResetMeetsInvariants :=
  ⟨memoryCanonical_reset, pcAligned_reset, outsideConsistently_reset.consistent, reservedClear_reset⟩

end Sys2Proof.Machine
end
